-- ==== Sys2Proof/Word.lean ====
section
/-!
DEFINITION. The word types of the block: the widths of `00_scope.md` rule R8, which the spec treats as bits, and the
four-element band code of `30_encoding.md` rule R67.
-/

namespace Sys2Proof

/-- A byte of the stream or of the frame buffer (BYTE_W = 8, R8). -/
abbrev Byte := BitVec 8

/-- A frequency or a boundary register, in Hz (FREQ_W = 34, R8, R9). -/
abbrev Freq := BitVec 34

/-- The ten packed decimal digits, DIG[0] in bits 39..36 (DIGITS_W = 40, R8, R66). -/
abbrev Digits := BitVec 40

/-- A band designation, the binary value of its metre number (BAND_W = 10, R8, R68). -/
abbrev Band := BitVec 10

/-- A configuration register address (CFG_ADDR_W = 5, R8). -/
abbrev CfgAddr := BitVec 5

/-- A row of the band range table, 0 to 10 in the document's order (R7, R12). -/
abbrev Row := Fin 11

/-- The stream port's vector E = rst ‖ in_error ‖ in_valid ‖ in_data, bit 10 = rst (R61). -/
abbrev StreamWord := BitVec 11

/-- The configuration port's vector G = cfg_we ‖ cfg_addr ‖ cfg_wdata, bit 39 = cfg_we (R62). -/
abbrev ConfigWord := BitVec 40

/-- A band code: exactly four binary digits in the order written, `c0` the leftmost (R67). The sequence is the
normative form; its packing into bits is a decision of the spec (D10). -/
structure Code where
  c0 : Bool
  c1 : Bool
  c2 : Bool
  c3 : Bool
  deriving DecidableEq, Repr

end Sys2Proof
end

