-- ==== Sys2Proof/Config.lean ====
section
/-!
DEFINITION. What never changes during a run (`10_state.md` rule R32), each literal at one place, so that a corrected value
is a change of one constant (`70_reset_and_hazards.md` rule R234): the literals of `00_scope.md` rule R7, the reset values
of the boundary registers (`10_state.md` rule R25), the band of each row and the band code table
(`44_band_code_encoder.md` rule R150). Decoder, encoder and stages read them from here. The literals are transcribed from the spec, which says that
they are unaudited (UNVERIFIED, log entry 18).
-/

namespace Sys2Proof.Config

open Sys2Proof

/-- TERM_BYTE: the byte that ends a frame (R7). -/
def termByte : Byte := 0xFD#8

/-- MSG_LEN: the length of a frequency message, terminator included (R7). -/
def msgLen : Nat := 11

/-- ID2_OFF and ID2_VAL: the first checked header byte (R7). -/
def id2Off : Nat := 2

def id2Val : Byte := 0x00#8

/-- ID3_OFF and ID3_VAL: the second checked header byte (R7). -/
def id3Off : Nat := 3

def id3Val : Byte := 0x94#8

/-- FQ_LO_OFF: the first offset of the frequency field (R7). -/
def fqLoOff : Nat := 5

/-- FQ_BYTES: bytes in the frequency field (R7). -/
def fqBytes : Nat := 5

/-- FQ_HI_OFF: the last offset of the frequency field (R7), 9 with the values above. -/
def fqHiOff : Nat := fqLoOff + fqBytes - 1

/-- FQ_DIGITS: decimal digits in the frequency (R7). -/
def fqDigits : Nat := 10

/-- The offsets of a frequency message whose bytes FILTER does not check and no stage decodes, in order: those of H0, H1
and H4 (R48, R111), which are the offsets that no constant above claims. -/
def uncheckedOffs : List Nat :=
  (List.range (msgLen - 1)).filter fun i => i != id2Off && i != id3Off && !(decide (fqLoOff ≤ i) && decide (i ≤ fqHiOff))

/-- The least FRAME_CAP the spec allows, 11 (R8): the least capacity at which every frame that can qualify is held whole
(D4). -/
def minFrameCap : Nat := msgLen

/-- The default FRAME_CAP, the least one (R8, D4). DESIGN CHOICE for the machine at reset, log entry 5. -/
def defaultFrameCap : Nat := minFrameCap

/-- LEN_W = ceil(log2(FRAME_CAP + 1)): bits of the fill count (R8). -/
def lenWidth (cap : Nat) : Nat := Nat.log2 cap + 1

/-- FLEN_W = ceil(log2(FRAME_CAP + 2)): bits of the reported frame length (R8). -/
def flenWidth (cap : Nat) : Nat := Nat.log2 (cap + 1) + 1

/-- The highest configuration address that holds a register (R25, R43). -/
def lastBoundaryAddr : Nat := 21

/-- ROW_BAND[0..10]: the band of each row, in metres (R7). -/
def rowBands : Vector Band 11 :=
  #v[160#10, 80#10, 60#10, 40#10, 30#10, 20#10, 17#10, 15#10, 12#10, 10#10, 6#10]

/-- The reset values of BND_LO[0..10], in Hz (R25, Low column). -/
def resetLow : Vector Freq 11 :=
  #v[1810000#34, 3500000#34, 5250000#34, 7000000#34, 10100000#34, 14000000#34, 18068000#34, 21000000#34,
     24890000#34, 28000000#34, 50000000#34]

/-- The reset values of BND_HI[0..10], in Hz (R25, High column). -/
def resetHigh : Vector Freq 11 :=
  #v[2000000#34, 3800000#34, 5450000#34, 7200000#34, 10150000#34, 14350000#34, 18168000#34, 21450000#34,
     24990000#34, 29700000#34, 52000000#34]

/-- The codes of the band code table, in the order of its rows (R150), which is that of ROW_BAND: code elements c0, c1,
c2, c3 as the document writes them. -/
def rowCodes : Vector Code 11 :=
  #v[⟨false, false, false, true⟩, ⟨false, false, true, false⟩, ⟨false, false, false, false⟩,
     ⟨false, false, true, true⟩, ⟨false, true, false, false⟩, ⟨false, true, false, true⟩,
     ⟨false, true, true, false⟩, ⟨false, true, true, true⟩, ⟨true, false, false, false⟩,
     ⟨true, false, false, true⟩, ⟨true, false, true, false⟩]

/-- The band code table (R150): each band with its code. -/
def bandCodes : List (Band × Code) :=
  (List.finRange 11).map fun r => (rowBands[r], rowCodes[r])

/-- SENTINEL: the code returned for an unrecognised band (R7, R150). -/
def sentinel : Code := ⟨true, true, true, true⟩

end Sys2Proof.Config
end

