-- ==== Sys2Proof/Syntax.lean ====
section
/-!
DEFINITION. The operations of the block, one constructor for each row of `spec/opcode_table.json`
(`30_encoding.md` rules R72, R75), the completed frame some of them take, and the words in which they are presented.
-/

namespace Sys2Proof

/-- A completed frame as a TERM step hands it to FILTER and PIPE (`40_framereader.md` R91): the bytes held, the reported
length FLEN (R92) and the overlong flag (R93). -/
structure Frame where
  bytes    : List Byte
  flen     : Nat
  overlong : Bool
  deriving DecidableEq, Repr

/-- One constructor per row of the opcode table. -/
inductive Instr where
  /-- RST: reset, wins over everything presented with it (R175). -/
  | rst
  /-- RDERR: the read returned an error (R94). -/
  | rderr
  /-- TERM: BYTE(0xFD), completes the frame and evaluates PIPE (R91). -/
  | term
  /-- ACC: BYTE(b) with b other than 0xFD (R90). -/
  | acc (b : Byte)
  /-- NODATA: the read returned no byte and no error (R96). -/
  | nodata
  /-- CFGWR(a, v): write a boundary register (R176, R177). -/
  | cfgwr (a : CfgAddr) (v : Freq)
  /-- FREQMSG: a completed frame of the frequency message class, its free bytes by name (R63, R48). `h4` lists the
  unchecked bytes after H0 and H1: H4 alone, with the document's MSG_LEN. -/
  | freqmsg (h0 h1 : Byte) (h4 : List Byte) (fq0 fq1 fq2 fq3 fq4 : Byte)
  /-- OTHER: any completed frame that is no frequency message (R63, R112). -/
  | other (f : Frame)
  /-- FILTER on a completed frame (R110). -/
  | filter (f : Frame)
  /-- BCDDEC on the five frequency bytes F[5] to F[9] (R120). -/
  | bcddec (fq0 fq1 fq2 fq3 fq4 : Byte)
  /-- BANDMAP on a frequency (R135). -/
  | bandmap (f : Freq)
  /-- BANDENC on a band value (R150). -/
  | bandenc (b : Band)
  /-- PIPE on a completed frame (R161). -/
  | pipe (f : Frame)
  /-- The test of range row 0, band 160 (R135, R136). -/
  | bandmap160 (f : Freq)
  /-- The test of range row 1, band 80. -/
  | bandmap80 (f : Freq)
  /-- The test of range row 2, band 60. -/
  | bandmap60 (f : Freq)
  /-- The test of range row 3, band 40. -/
  | bandmap40 (f : Freq)
  /-- The test of range row 4, band 30. -/
  | bandmap30 (f : Freq)
  /-- The test of range row 5, band 20. -/
  | bandmap20 (f : Freq)
  /-- The test of range row 6, band 17. -/
  | bandmap17 (f : Freq)
  /-- The test of range row 7, band 15. -/
  | bandmap15 (f : Freq)
  /-- The test of range row 8, band 12. -/
  | bandmap12 (f : Freq)
  /-- The test of range row 9, band 10. -/
  | bandmap10 (f : Freq)
  /-- The test of range row 10, band 6. -/
  | bandmap6 (f : Freq)
  /-- The code row of band 160 (R150). -/
  | bandenc160
  /-- The code row of band 80. -/
  | bandenc80
  /-- The code row of band 60. -/
  | bandenc60
  /-- The code row of band 40. -/
  | bandenc40
  /-- The code row of band 30. -/
  | bandenc30
  /-- The code row of band 20. -/
  | bandenc20
  /-- The code row of band 17. -/
  | bandenc17
  /-- The code row of band 15. -/
  | bandenc15
  /-- The code row of band 12. -/
  | bandenc12
  /-- The code row of band 10. -/
  | bandenc10
  /-- The code row of band 6. -/
  | bandenc6
  /-- The default code row: any band value outside the eleven (R152). -/
  | bandencUnknown (b : Band)
  deriving DecidableEq, Repr

/-- A word presented to the machine, by the format of the opcode table it belongs to (R75).

Only `instant` is an input of the block: one sampling instant of its two ports (R61, R62). The other constructors are
the model's own BENCH (DESIGN CHOICE, log entry 2): the spec gives the frame classes, the stages and the table rows no
port (R72, D22), and a bench word presents one of them with its operand, so that it can be evaluated alone. -/
inductive InputWord where
  /-- Formats `event11` and `cfg40`: what the two ports carry at one sampling instant. -/
  | instant (e : StreamWord) (g : ConfigWord)
  /-- Format `frame88`: a completed frame, to be classified (R63). -/
  | frame (overlong : Bool) (bytes : List Byte)
  /-- Stage FILTER on a completed frame. -/
  | filter (overlong : Bool) (bytes : List Byte)
  /-- Stage BCDDEC on F[9] ‖ F[8] ‖ F[7] ‖ F[6] ‖ F[5], the operand pattern of its table row. -/
  | bcddec (w : Digits)
  /-- Stage BANDMAP on a frequency. -/
  | bandmap (f : Freq)
  /-- Stage BANDENC on a band value. -/
  | bandenc (b : Band)
  /-- Stage PIPE on a completed frame. -/
  | pipe (overlong : Bool) (bytes : List Byte)
  /-- Format `range34`: one row of the range table on a frequency. -/
  | range (r : Row) (f : Freq)
  /-- Format `band10`: the row of the code table that a band value selects. -/
  | band (b : Band)
  /-- A vector of a width or value that no format of the table has. -/
  | noFormat (nbits w : Nat)
  deriving DecidableEq, Repr

/-- Why a presented word is no operation of the block. Raised by `decode`, each safe: the machine stops where the
hardware has nothing to run. -/
inductive DecodeError where
  /-- The bytes of a frame that is not overlong do not end with the terminator (R91, R110). -/
  | notTerminated
  /-- A terminator stands before the end of a frame: the first one ends it (R60, R64). -/
  | innerTerminator
  /-- An overlong frame with fewer bytes than the least FRAME_CAP (R93, D4). -/
  | overlongTooShort
  /-- The vector belongs to no format of the opcode table (R75). -/
  | noFormat (nbits : Nat)
  deriving DecidableEq, Repr

end Sys2Proof
end

