-- ==== Sys2Proof/WellFormed.lean ====
section
/-!
DEFINITION. Which terms of `Instr` stand for an operation of the block: the classes of `30_encoding.md` rules R60, R63
and R64 and the operand conditions of `41_filter.md` rule R110.
-/

namespace Sys2Proof

/-- No byte of `bs` is the terminator (R60). -/
def noTerminator (bs : List Byte) : Bool :=
  bs.all fun b => b != Config.termByte

/-- `bs` ends with the terminator and holds no other (R64, R91): what FrameReader reports of a frame that fits. -/
def endsAtFirstTerminator : List Byte → Bool
  | [] => false
  | [b] => b == Config.termByte
  | b :: c :: rest => b != Config.termByte && endsAtFirstTerminator (c :: rest)

/-- The frame is one a TERM step can complete at some FRAME_CAP of at least 11 (R91, R92, R93): its length is reported
as R92 says, a frame that fits ends at its first terminator, and an overlong one holds FRAME_CAP bytes, none of them the
terminator. -/
def Frame.wf (f : Frame) : Bool :=
  if f.overlong then
    decide (Config.minFrameCap ≤ f.bytes.length) && decide (f.flen = f.bytes.length + 1) && noTerminator f.bytes
  else
    decide (f.flen = f.bytes.length) && endsAtFirstTerminator f.bytes

/-- The mask and match of the table's FREQMSG row, byte by byte (R63): length MSG_LEN, the two checked header bytes, the
terminator last, and the frame not overlong. -/
def Frame.isFreqMsg (f : Frame) : Bool :=
  !f.overlong && decide (f.bytes.length = Config.msgLen) && f.bytes[Config.id2Off]? == some Config.id2Val
    && f.bytes[Config.id3Off]? == some Config.id3Val && f.bytes[Config.msgLen - 1]? == some Config.termByte

/-- The band values of the code table (R150). -/
def knownBand (b : Band) : Bool :=
  Config.bandCodes.any fun p => p.1 == b

/-- Well-formed instructions. Every operand the table leaves free is free here too. -/
def Instr.wf : Instr → Bool
  | .rst => true
  | .rderr => true
  | .term => true
  | .acc b => b != Config.termByte
  | .nodata => true
  | .cfgwr _ _ => true
  | .freqmsg h0 h1 h4 fq0 fq1 fq2 fq3 fq4 =>
    decide (h4.length = Config.uncheckedOffs.length - 2) && noTerminator (h0 :: h1 :: h4)
      && noTerminator [fq0, fq1, fq2, fq3, fq4]
  | .other f => f.wf && !f.isFreqMsg
  | .filter f => f.wf
  | .bcddec _ _ _ _ _ => true
  | .bandmap _ => true
  | .bandenc _ => true
  | .pipe f => f.wf
  | .bandmap160 _ => true
  | .bandmap80 _ => true
  | .bandmap60 _ => true
  | .bandmap40 _ => true
  | .bandmap30 _ => true
  | .bandmap20 _ => true
  | .bandmap17 _ => true
  | .bandmap15 _ => true
  | .bandmap12 _ => true
  | .bandmap10 _ => true
  | .bandmap6 _ => true
  | .bandenc160 => true
  | .bandenc80 => true
  | .bandenc60 => true
  | .bandenc40 => true
  | .bandenc30 => true
  | .bandenc20 => true
  | .bandenc17 => true
  | .bandenc15 => true
  | .bandenc12 => true
  | .bandenc10 => true
  | .bandenc6 => true
  | .bandencUnknown b => !knownBand b

end Sys2Proof
end

