-- ==== Sys2Proof/Decode.lean ====
section
/-!
DEFINITION. The decoder, total on every presented word and rejecting by name, then the encoder, then the numbering of
`spec/opcode_table.json` (`decodeTableWord`). The formats are those of `30_encoding.md` rules R61 to R66 and R75.
-/

namespace Sys2Proof

/-- The stream vector of BYTE(b): rst = 0, in_error = 0, in_valid = 1, in_data = b (R61). -/
def byteVector (b : Byte) : StreamWord := 0b001#3 ++ b

/-- The event a stream vector E selects (R61): the rows' masks and matches, tested from the top. TERM compares all eleven
bits, with the terminator as its data. -/
def decodeEvent (e : StreamWord) : Instr :=
  if e &&& 0x400#11 = 0x400#11 then .rst
  else if e &&& 0x600#11 = 0x200#11 then .rderr
  else if e = byteVector Config.termByte then .term
  else if e &&& 0x700#11 = 0x100#11 then .acc (e.setWidth 8)
  else .nodata

/-- `rst` of a stream vector (R61). -/
def rstBit (e : StreamWord) : Bool := e.getLsbD 10

/-- `cfg_we` of a configuration vector (R62). -/
def cfgWe (g : ConfigWord) : Bool := g.getLsbD 39

/-- CFGWR with the address and data a configuration vector carries (R62). -/
def decodeConfig (g : ConfigWord) : Instr :=
  .cfgwr (g.extractLsb' 34 5) (g.extractLsb' 0 34)

/-- The event a sampling instant gives first (R62): RST alone if `rst` is 1, otherwise the configuration write, otherwise
the stream event. -/
def decodeInstant (e : StreamWord) (g : ConfigWord) : Instr :=
  if rstBit e then .rst
  else if cfgWe g then decodeConfig g
  else decodeEvent e

/-- What is left of a sampling instant after its first event (R62): the stream event, when the first one was the
configuration write; nothing else. -/
def restOfInstant (e : StreamWord) (g : ConfigWord) : List InputWord :=
  if !rstBit e && cfgWe g then [.instant e 0#40] else []

/-- The completed frame that a byte sequence is, with its reported length (R92). -/
def decodeFrame (overlong : Bool) (bytes : List Byte) : Except DecodeError Frame :=
  if overlong then
    if bytes.length < Config.minFrameCap then .error .overlongTooShort
    else if noTerminator bytes then .ok ⟨bytes, bytes.length + 1, true⟩
    else .error .innerTerminator
  else if endsAtFirstTerminator bytes then .ok ⟨bytes, bytes.length, false⟩
  else if bytes.getLast? = some Config.termByte then .error .innerTerminator
  else .error .notTerminated

/-- The byte of a completed frame at offset `o` (R48). An offset that does not exist reads 0x00 (DESIGN CHOICE, log entry
12). -/
def fieldAt (f : Frame) (o : Nat) : Byte := f.bytes.getD o 0x00#8

/-- FQ0 to FQ4: byte `k` of the frequency field of a frame (R48, R65). -/
def fqAt (f : Frame) (k : Nat) : Byte := fieldAt f (Config.fqLoOff + k)

/-- The bytes of a frame that FILTER does not check and no stage decodes (R111), in order. -/
def uncheckedBytes (f : Frame) : List Byte := Config.uncheckedOffs.map (fieldAt f)

/-- The frame class (R63): FREQMSG with its fields, tested first, and OTHER for every other completed frame. -/
def classifyFrame (f : Frame) : Instr :=
  if f.isFreqMsg then
    .freqmsg ((uncheckedBytes f).getD 0 0x00#8) ((uncheckedBytes f).getD 1 0x00#8) ((uncheckedBytes f).drop 2)
      (fqAt f 0) (fqAt f 1) (fqAt f 2) (fqAt f 3) (fqAt f 4)
  else .other f

/-- The byte of the BCDDEC operand word that frame byte 5 + k stands in: bits 8k + 7 to 8k (R66). -/
def operandByte (w : Digits) (k : Nat) : Byte :=
  w.extractLsb' (8 * k) 8

/-- The table row of format `range34` for each row of the range table. -/
def decodeRange (r : Row) (f : Freq) : Instr :=
  match r.val with
  | 0 => .bandmap160 f
  | 1 => .bandmap80 f
  | 2 => .bandmap60 f
  | 3 => .bandmap40 f
  | 4 => .bandmap30 f
  | 5 => .bandmap20 f
  | 6 => .bandmap17 f
  | 7 => .bandmap15 f
  | 8 => .bandmap12 f
  | 9 => .bandmap10 f
  | _ => .bandmap6 f

/-- The table row of format `band10` that a band value selects: the eleven rows compare all ten bits (mask 0x3FF) with
the band of their row, the default row takes every other value (R150, R152, R75). -/
def decodeBand (b : Band) : Instr :=
  if b = Config.rowBands[0] then .bandenc160
  else if b = Config.rowBands[1] then .bandenc80
  else if b = Config.rowBands[2] then .bandenc60
  else if b = Config.rowBands[3] then .bandenc40
  else if b = Config.rowBands[4] then .bandenc30
  else if b = Config.rowBands[5] then .bandenc20
  else if b = Config.rowBands[6] then .bandenc17
  else if b = Config.rowBands[7] then .bandenc15
  else if b = Config.rowBands[8] then .bandenc12
  else if b = Config.rowBands[9] then .bandenc10
  else if b = Config.rowBands[10] then .bandenc6
  else .bandencUnknown b

/-- The operation a presented word stands for, or why it stands for none. -/
def decode : InputWord → Except DecodeError Instr
  | .instant e g => .ok (decodeInstant e g)
  | .frame o bs => (decodeFrame o bs).map classifyFrame
  | .filter o bs => (decodeFrame o bs).map .filter
  | .bcddec w =>
    .ok (.bcddec (operandByte w 0) (operandByte w 1) (operandByte w 2) (operandByte w 3) (operandByte w 4))
  | .bandmap f => .ok (.bandmap f)
  | .bandenc b => .ok (.bandenc b)
  | .pipe o bs => (decodeFrame o bs).map .pipe
  | .range r f => .ok (decodeRange r f)
  | .band b => .ok (decodeBand b)
  | .noFormat n _ => .error (.noFormat n)

/-- What is still to be taken of a presented word after the operation it decodes to: nothing, but for a sampling instant
that carried a configuration write (R62). -/
def restOfWord : InputWord → List InputWord
  | .instant e g => restOfInstant e g
  | _ => []

/-- A sampling instant with the stream vector `e` and no configuration write. -/
def streamWord (e : StreamWord) : InputWord := .instant e 0#40

/-- The five bytes F[5] to F[9] as the operand word F[9] ‖ F[8] ‖ F[7] ‖ F[6] ‖ F[5] (R66, R120). -/
def packOperand (fq0 fq1 fq2 fq3 fq4 : Byte) : Digits :=
  fq4 ++ fq3 ++ fq2 ++ fq1 ++ fq0

/-- Byte `i` of a frequency message with the unchecked bytes `us` and the frequency bytes `fqs`, each list in the order
of its offsets (R48, R63). -/
def msgByte (us fqs : List Byte) (i : Nat) : Byte :=
  if i = Config.id2Off then Config.id2Val
  else if i = Config.id3Off then Config.id3Val
  else if i = Config.msgLen - 1 then Config.termByte
  else if Config.fqLoOff ≤ i ∧ i ≤ Config.fqHiOff then fqs.getD (i - Config.fqLoOff) 0x00#8
  else us.getD (Config.uncheckedOffs.idxOf i) 0x00#8

/-- The bytes of a frequency message in frame order (R48, R63). -/
def freqMsgBytes (h0 h1 : Byte) (h4 : List Byte) (fq0 fq1 fq2 fq3 fq4 : Byte) : List Byte :=
  (List.range Config.msgLen).map (msgByte (h0 :: h1 :: h4) [fq0, fq1, fq2, fq3, fq4])

/-- The word of a well-formed instruction, with every bit that the table leaves open 0. -/
def encode : Instr → InputWord
  | .rst => streamWord 0x400#11
  | .rderr => streamWord 0x200#11
  | .term => streamWord (byteVector Config.termByte)
  | .acc b => streamWord (byteVector b)
  | .nodata => streamWord 0x000#11
  | .cfgwr a v => .instant 0#11 (1#1 ++ a ++ v)
  | .freqmsg h0 h1 h4 fq0 fq1 fq2 fq3 fq4 => .frame false (freqMsgBytes h0 h1 h4 fq0 fq1 fq2 fq3 fq4)
  | .other f => .frame f.overlong f.bytes
  | .filter f => .filter f.overlong f.bytes
  | .bcddec fq0 fq1 fq2 fq3 fq4 => .bcddec (packOperand fq0 fq1 fq2 fq3 fq4)
  | .bandmap f => .bandmap f
  | .bandenc b => .bandenc b
  | .pipe f => .pipe f.overlong f.bytes
  | .bandmap160 f => .range 0 f
  | .bandmap80 f => .range 1 f
  | .bandmap60 f => .range 2 f
  | .bandmap40 f => .range 3 f
  | .bandmap30 f => .range 4 f
  | .bandmap20 f => .range 5 f
  | .bandmap17 f => .range 6 f
  | .bandmap15 f => .range 7 f
  | .bandmap12 f => .range 8 f
  | .bandmap10 f => .range 9 f
  | .bandmap6 f => .range 10 f
  | .bandenc160 => .band Config.rowBands[0]
  | .bandenc80 => .band Config.rowBands[1]
  | .bandenc60 => .band Config.rowBands[2]
  | .bandenc40 => .band Config.rowBands[3]
  | .bandenc30 => .band Config.rowBands[4]
  | .bandenc20 => .band Config.rowBands[5]
  | .bandenc17 => .band Config.rowBands[6]
  | .bandenc15 => .band Config.rowBands[7]
  | .bandenc12 => .band Config.rowBands[8]
  | .bandenc10 => .band Config.rowBands[9]
  | .bandenc6 => .band Config.rowBands[10]
  | .bandencUnknown b => .band b

/-- Byte `i` of a frame vector of MSG_LEN bytes as the table numbers it: frame byte 0 is the most significant, bits
87..80 (R63). -/
def frameVectorByte (w i : Nat) : Byte :=
  BitVec.ofNat 8 (w >>> (8 * (Config.msgLen - 1 - i)))

/-- The bytes of a frame vector, byte 0 first. -/
def frameVectorBytes (w : Nat) : List Byte :=
  (List.range Config.msgLen).map (frameVectorByte w)

/-- The presented word that a vector of the opcode table is, its bits numbered as the table numbers them.

The table has several formats and a vector does not say which it belongs to, so the width decides; where two formats
fill the same number of whole bytes, the row that fixes more bits of the vector is taken first (DESIGN CHOICE, log entry
7). So of the 16-bit vectors the eleven `band10` rows (ten bits compared) come before NODATA (three bits compared), and
every 40-bit vector with bit 39 clear, which is no configuration event, is an operand of BCDDEC. The exact widths 10 and
11 say their format. Nothing of this is seen by an event: the ports carry `instant` words. -/
def tableWord (nbits w : Nat) : InputWord :=
  if nbits = 11 ∧ w < 2 ^ 11 then streamWord (BitVec.ofNat 11 w)
  else if nbits = 10 ∧ w < 2 ^ 10 then .band (BitVec.ofNat 10 w)
  else if nbits = 16 ∧ w < 2 ^ 10 ∧ knownBand (BitVec.ofNat 10 w) then .band (BitVec.ofNat 10 w)
  else if nbits = 16 ∧ w < 2 ^ 11 then streamWord (BitVec.ofNat 11 w)
  else if nbits = 40 ∧ w < 2 ^ 40 then
    if cfgWe (BitVec.ofNat 40 w) then .instant 0#11 (BitVec.ofNat 40 w) else .bcddec (BitVec.ofNat 40 w)
  else if nbits = 8 * Config.msgLen ∧ w < 2 ^ (8 * Config.msgLen) then
    .frame (noTerminator (frameVectorBytes w)) (frameVectorBytes w)
  else .noFormat nbits w

/-- The instruction the decoder reads from a vector of the opcode table. -/
def decodeTableWord (nbits w : Nat) : Option Instr :=
  (decode (tableWord nbits w)).toOption

end Sys2Proof
end

