-- ==== Sys2Proof/Machine/State.lean ====
section
/-!
DEFINITION. The state of the block (`10_state.md` rule R20), the output record (`45_pipeline.md` rule R160), the reasons
a step can stop, and the machine right after reset (`10_state.md` rule R31).
-/

namespace Sys2Proof.Machine

/-- The error kinds that a record can carry (`60_exceptions.md` R190). NoDataAvailable (code 2) and code 7 are never
driven, so no constructor stands for them (R190, R192, U8). -/
inductive ErrKind where
  /-- code 0: no error -/
  | noError
  /-- code 1: raised by RDERR -/
  | streamReadError
  /-- code 3: raised by BCDDEC -/
  | malformedBcdDigits
  /-- code 4: raised by BANDMAP -/
  | outOfBand
  /-- code 5: raised by BANDENC, unreachable through PIPE (R153) -/
  | unknownBandCode
  /-- code 6: the frame had more than FRAME_CAP bytes (R93, R196) -/
  | frameOverlong
  deriving DecidableEq, Repr

/-- Which operation emitted a record: TERM or RDERR (R160). -/
inductive RecordKind where
  | frame
  | streamError
  deriving DecidableEq, Repr

/-- The output record (R160), its fields in the document's order of presentation. A field that is absent is `none`; what
the output carries then is unspecified (D23, log entry 14). `accepted` is the spec's field `match`. -/
structure Record where
  kind     : RecordKind
  frame    : Option (List Byte)
  flen     : Option Nat
  overlong : Option Bool
  accepted : Option Bool
  digits   : Option Digits
  freq     : Option Freq
  band     : Option Band
  code     : Option Code
  err      : ErrKind
  deriving DecidableEq, Repr

/-- The value of a stage operation, a frame class or a table row evaluated alone (D22; DESIGN CHOICE, log entry 2). -/
inductive StageValue where
  /-- FILTER: whether the frame is a frequency message (R110). -/
  | filter (accepted : Bool)
  /-- BCDDEC: the digit word, the frequency if every digit is 0 to 9, and the error raised (R120). -/
  | decoded (digits : Digits) (freq : Option Freq) (err : ErrKind)
  /-- BANDMAP: the band, or none with the error raised (R135). -/
  | band (band : Option Band) (err : ErrKind)
  /-- One range row: its band if it contains the frequency; a row raises nothing (R136, log entry 20). -/
  | row (band : Option Band)
  /-- BANDENC or one row of its table: the code driven, whether it is valid, and the error raised (R150). -/
  | code (code : Code) (ok : Bool) (err : ErrKind)
  /-- PIPE or a frame class: the record built (R161). -/
  | record (r : Record)
  deriving DecidableEq, Repr

/-- The frame buffer as a memory: (index, byte) cells, indices strictly rising, no byte equal to what an unlisted index
reads as. -/
abbrev Memory := List Host.Cell

/-- What a frame-buffer index that nothing has written reads as. DESIGN CHOICE (unsafe), log entry 4: the spec leaves it
unspecified and no rule reads it (R21, R31). -/
def unwrittenByte : Byte := 0x00#8

/-- Why a step stops with a fault. -/
inductive Fault where
  /-- An access to a frame-buffer index at or above FRAME_CAP, which does not exist (R55). Raised by `bufWrite` and
  `bufReadPrefix` (Machine/Ops.lean); no operation of the spec makes such an access. Safe. Log entry 15. -/
  | bufferRange (index : Nat)
  deriving DecidableEq, Repr

/-- Why a step has no meaning for what is presented. -/
inductive Refusal where
  /-- An instruction that `exec` gives no meaning. No arm answers with it. Safe. -/
  | notModelled (mnemonic : String)
  /-- The presented word is no operation of the block; raised by `fetch` when `decode` rejects it. Safe. -/
  | undecodable (e : DecodeError)
  deriving DecidableEq, Repr

/-- THE ARCHITECTURAL STATE, exactly the record of R20: these five elements and no other, for a block of the given
FRAME_CAP. -/
structure ArchState (frameCap : Nat) where
  /-- HALT: halted after a stream read error (R24). -/
  halt : Bool
  /-- LEN: bytes accumulated for the frame under construction, saturated at FRAME_CAP, in LEN_W bits (R8, R22). -/
  len : BitVec (Config.lenWidth frameCap)
  /-- BUF[0..FRAME_CAP-1]: the frame buffer (R21). -/
  buf : Memory
  /-- BND_LO[0..10] (R25). -/
  bndLo : Vector Freq 11
  /-- BND_HI[0..10] (R25). -/
  bndHi : Vector Freq 11
  deriving DecidableEq, Repr

/-- The two sides of a step that are no state of the block: what the environment presents to it and what it outputs
(R11). The step of the spec takes the first as an argument and gives the second beside the next state; the host's step
takes and gives one value (log entries 1, 2, 3). -/
structure Ports where
  /-- What the environment has presented and the block has not yet taken, oldest first (R11, R61, R62). -/
  input : List InputWord
  /-- The output of the step that led here (R10, R11): one record, or none. -/
  out : Option Record
  /-- The value of a stage operation evaluated alone by the step that led here, or none (D22). -/
  stage : Option StageValue
  deriving DecidableEq, Repr

/-- What the host's step takes and gives: a block of some FRAME_CAP, its architectural state, and its ports. FRAME_CAP is
the OPEN parameter of R8: configuration, not state (R32), which no operation writes. -/
structure State where
  /-- FRAME_CAP (R8, R32, D4; log entry 5). -/
  frameCap : Nat
  /-- The whole state of the block (R20). -/
  arch : ArchState frameCap
  /-- The inputs and outputs of a step, no state of the block. -/
  ports : Ports
  deriving DecidableEq, Repr

/-- HALT. -/
def State.halt (s : State) : Bool := s.arch.halt

/-- LEN, as the number its LEN_W bits write. -/
def State.len (s : State) : Nat := s.arch.len.toNat

/-- BUF. -/
def State.buf (s : State) : Memory := s.arch.buf

/-- BND_LO. -/
def State.bndLo (s : State) : Vector Freq 11 := s.arch.bndLo

/-- BND_HI. -/
def State.bndHi (s : State) : Vector Freq 11 := s.arch.bndHi

/-- What is presented and not yet taken. -/
def State.input (s : State) : List InputWord := s.ports.input

/-- The record output by the step that led here. -/
def State.out (s : State) : Option Record := s.ports.out

/-- The stage value presented by the step that led here. -/
def State.stage (s : State) : Option StageValue := s.ports.stage

/-- The architectural state right after reset (R31), for any FRAME_CAP: running, no frame under construction, the
document's boundaries; the buffer with nothing listed (log entry 4). -/
def ArchState.reset (frameCap : Nat) : ArchState frameCap where
  halt := false
  len := 0#_
  buf := []
  bndLo := Config.resetLow
  bndHi := Config.resetHigh

/-- The machine right after reset (R31): FRAME_CAP at the spec's default (log entry 5), no output, nothing presented
yet. -/
def State.reset : State where
  frameCap := Config.defaultFrameCap
  arch := ArchState.reset Config.defaultFrameCap
  ports := { input := [], out := none, stage := none }

end Sys2Proof.Machine
end

