-- ==== Sys2Proof/Machine/Operands.lean ====
section
/-!
DEFINITION. The operand forms: nibbles (`00_scope.md` rule R10), bytes of a completed frame by index, the frequency field
and its digits (`30_encoding.md` rules R65, R66), rows of the range table and the packing of a code (R67).
-/

namespace Sys2Proof.Machine

/-- hi(b): the high nibble (R10). -/
def hi (b : Byte) : BitVec 4 := b.extractLsb' 4 4

/-- lo(b): the low nibble (R10). -/
def lo (b : Byte) : BitVec 4 := b.extractLsb' 0 4

/-- F[i]: byte `i` of a completed frame (R10). Every index that is read exists in a qualifying frame (R45); on bytes
that are no such frame an index that does not exist reads 0x00 (DESIGN CHOICE, log entry 12). -/
def frameByte (f : Frame) (i : Nat) : Byte := fieldAt f i

/-- The frequency field of a frame as one word, F[9] ‖ F[8] ‖ F[7] ‖ F[6] ‖ F[5]: the byte order is reversed (R40, R66,
R120). -/
def frequencyField (f : Frame) : Digits :=
  packOperand (fqAt f 0) (fqAt f 1) (fqAt f 2) (fqAt f 3) (fqAt f 4)

/-- DIG[j] = DIGITS[39 - 4j : 36 - 4j], for j = 0 to 9 (R66, R121). -/
def digit (d : Digits) (j : Nat) : BitVec 4 := d.extractLsb' (36 - 4 * j) 4

/-- The ten digits, the most significant first (R121). -/
def digitList (d : Digits) : List (BitVec 4) := (List.range Config.fqDigits).map (digit d)

/-- ROW_BAND[r] (R7). -/
def rowBand (r : Row) : Band := Config.rowBands[r]

/-- BND_LO[r] and BND_HI[r] of a register file of bounds. -/
def bound (bs : Vector Freq 11) (r : Row) : Freq := bs[r]

/-- CODE = c0 ‖ c1 ‖ c2 ‖ c3 (R67, D10). -/
def packCode (c : Code) : BitVec 4 :=
  BitVec.ofBool c.c0 ++ BitVec.ofBool c.c1 ++ BitVec.ofBool c.c2 ++ BitVec.ofBool c.c3

/-- The completed frame with the fields of a frequency message (R48, R63). -/
def freqMsgFrame (h0 h1 : Byte) (h4 : List Byte) (fq0 fq1 fq2 fq3 fq4 : Byte) : Frame :=
  ⟨freqMsgBytes h0 h1 h4 fq0 fq1 fq2 fq3 fq4, Config.msgLen, false⟩

end Sys2Proof.Machine
end

