-- ==== Sys2Proof/Machine/Flags.lean ====
section
/-!
DEFINITION. The conditions the stages decide on and the flags of the record. The block holds no flag but HALT: the others
are fields of the record, computed afresh for each frame (`10_state.md` rule R27).
-/

namespace Sys2Proof.Machine

/-- Every one of the ten nibbles is a decimal digit, 0 to 9 (R65, R122). -/
def digitsValid (d : Digits) : Bool := (digitList d).all fun n => decide (n.toNat ≤ 9)

/-- BND_LO <= f <= BND_HI, unsigned and inclusive on both ends (R136). -/
def inRange (low high f : Freq) : Bool := decide (low.toNat ≤ f.toNat) && decide (f.toNat ≤ high.toNat)

/-- The numeric code of the record's `err` field (R190, D11). -/
def errCode : ErrKind → BitVec 3
  | .noError => 0#3
  | .streamReadError => 1#3
  | .malformedBcdDigits => 3#3
  | .outOfBand => 4#3
  | .unknownBandCode => 5#3
  | .frameOverlong => 6#3

/-- The record a frame starts with (R161): the frame, its length and the overlong flag; not accepted; the error kind
FrameOverlong for an overlong frame and none otherwise. It is the whole record of a frame FILTER rejects (R112, R165). -/
def frameRecord (f : Frame) : Record where
  kind := .frame
  frame := some f.bytes
  flen := some f.flen
  overlong := some f.overlong
  accepted := some false
  digits := none
  freq := none
  band := none
  code := none
  err := if f.overlong then .frameOverlong else .noError

end Sys2Proof.Machine
end

