-- ==== Sys2Proof/Machine/Ops.lean ====
section
/-!
DEFINITION. The named operations over the state: the frame buffer primitives (`20_memory.md` rule R55), the outputs,
the boundary registers (`46_system.md` rules R176, R177), taking the one error that stops the block (`40_framereader.md`
rule R94) and the one way back (`46_system.md` rule R175), and the gate of the halted state (R95).
-/

namespace Sys2Proof.Machine

/-- The byte of a memory at an index. -/
def Memory.read : Memory → Nat → Byte
  | [], _ => unwrittenByte
  | (k, v) :: rest, i => if k = i then v else Memory.read rest i

/-- A memory with the byte at an index replaced, in canonical form. -/
def Memory.write : Memory → Nat → Byte → Memory
  | [], i, b => if b = unwrittenByte then [] else [(i, b)]
  | (k, v) :: rest, i, b =>
    if i < k then (if b = unwrittenByte then (k, v) :: rest else (i, b) :: (k, v) :: rest)
    else if i = k then (if b = unwrittenByte then rest else (i, b) :: rest)
    else (k, v) :: Memory.write rest i b

/-- Every index listed in a memory is at least `lo`, indices rise strictly, and no listed byte is the unwritten one. -/
def Memory.wfFrom : Nat → Memory → Bool
  | _, [] => true
  | lo, (k, v) :: rest => decide (lo ≤ k) && v != unwrittenByte && Memory.wfFrom (k + 1) rest

/-- The canonical form of a memory. -/
def Memory.wf (m : Memory) : Bool := Memory.wfFrom 0 m

/-- Every index listed in a memory is below `cap`. -/
def Memory.below (cap : Nat) (m : Memory) : Bool := m.all fun c => decide (c.1 < cap)

/-- One partial computation after another: a fault or a refusal of the first is the answer. -/
def andThen {α β : Type} (x : Host.Outcome α Fault Refusal) (k : α → Host.Outcome β Fault Refusal) :
    Host.Outcome β Fault Refusal :=
  match x with
  | .next a => k a
  | .fault r => .fault r
  | .refused r => .refused r

/-- No output in this step: neither a record nor a stage value (R10: a step that does not say `emit` outputs none). -/
def quiet (s : State) : State := { s with ports := { s.ports with out := none, stage := none } }

/-- `emit r` (R10). -/
def emit (r : Record) (s : State) : State := { s with ports := { s.ports with out := some r, stage := none } }

/-- The value of an operation evaluated alone is presented; nothing else changes (D22, log entry 2). -/
def showStage (v : StageValue) (s : State) : State := { s with ports := { s.ports with out := none, stage := some v } }

/-- `HALT <- h`. -/
def setHalt (h : Bool) (s : State) : State := { s with arch := { s.arch with halt := h } }

/-- `LEN <- n`, in LEN_W bits, which hold every number up to FRAME_CAP (R8). -/
def setLen (n : Nat) (s : State) : State := { s with arch := { s.arch with len := BitVec.ofNat _ n } }

/-- Both files of boundary registers replaced (R25). -/
def setBounds (lo hi : Vector Freq 11) (s : State) : State := { s with arch := { s.arch with bndLo := lo, bndHi := hi } }

/-- `BUF[i] <- b` of R55, where index `i` exists. -/
def putByte (i : Nat) (b : Byte) (s : State) : State := { s with arch := { s.arch with buf := s.buf.write i b } }

/-- `MemWrite(i, 1, b)` (R55): defined for indices below FRAME_CAP. -/
def bufWrite (i : Nat) (b : Byte) (s : State) : Host.Outcome State Fault Refusal :=
  if i < s.frameCap then .next (putByte i b s) else .fault (.bufferRange i)

/-- The bytes BUF[0..n-1] (R55): defined while every index read is below FRAME_CAP. -/
def bufReadPrefix (n : Nat) (s : State) : Host.Outcome (List Byte) Fault Refusal :=
  if n ≤ s.frameCap then .next ((List.range n).map s.buf.read) else .fault (.bufferRange s.frameCap)

/-- The event operations other than RST do nothing while HALT = 1 (R72, R95): no state changes, nothing is output. -/
def whenRunning (s : State) (k : Host.Outcome State Fault Refusal) : Host.Outcome State Fault Refusal :=
  if s.halt then .next (quiet s) else k

/-- The record of an RDERR step (R162). -/
def streamErrorRecord : Record where
  kind := .streamError
  frame := none
  flen := none
  overlong := none
  accepted := none
  digits := none
  freq := none
  band := none
  code := none
  err := .streamReadError

/-- TAKING THE ERROR THAT STOPS THE BLOCK (R94, R191, R201): HALT is set, the partial frame is abandoned, one record is
emitted; BUF and the boundaries are left alone and nothing is saved. -/
def takeStreamError (s : State) : State :=
  emit streamErrorRecord (setHalt true (setLen 0 s))

/-- THE ONE WAY BACK (R175, R202): HALT and LEN are cleared and every boundary takes its reset value; BUF is not
written; no output. -/
def resetBlock (s : State) : State :=
  quiet (setBounds Config.resetLow Config.resetHigh (setHalt false (setLen 0 s)))

/-- The row a configuration address belongs to: a / 2, rounded down (R176). -/
def boundaryRow (a : CfgAddr) : Nat := a.toNat / 2

/-- Whether a configuration address is a low bound: even (R176). -/
def isLowBound (a : CfgAddr) : Bool := a.toNat % 2 == 0

/-- The write of CFGWR (R176); a reserved address changes nothing (R177). -/
def writeBoundary (a : CfgAddr) (v : Freq) (s : State) : State :=
  if a.toNat ≤ Config.lastBoundaryAddr then
    if isLowBound a then setBounds (s.bndLo.setIfInBounds (boundaryRow a) v) s.bndHi s
    else setBounds s.bndLo (s.bndHi.setIfInBounds (boundaryRow a) v) s
  else s

/-- The presented words that are still to be taken. -/
def setInput (ws : List InputWord) (s : State) : State := { s with ports := { s.ports with input := ws } }

/-- A word presented to the machine, to be taken by the next step before whatever is waiting. -/
def present (w : InputWord) (s : State) : State := setInput (w :: s.input) s

end Sys2Proof.Machine
end

