-- ==== Sys2Proof/Machine/BandCodeEncoder.lean ====
section
/-!
DEFINITION. BandCodeEncoder: the stage BANDENC and the twelve rows of its table (`44_band_code_encoder.md` rules R150 to
R152). The table is fixed (`10_state.md` rule R32).
-/

namespace Sys2Proof.Machine

/-- The code of a band value, if the table has one (R150). -/
def lookupCode (b : Band) : Option Code := (Config.bandCodes.find? fun p => p.1 == b).map Prod.snd

/-- BANDENC(b): the code driven and whether it is valid; the sentinel with `false` for any other value (R150, R152). -/
def bandEncode (b : Band) : Code × Bool :=
  match lookupCode b with
  | some c => (c, true)
  | none => (Config.sentinel, false)

/-- The error BANDENC raises, exactly when the code is not valid (R150). -/
def bandEncodeError (ok : Bool) : ErrKind := if ok then .noError else .unknownBandCode

/-- The result of BANDENC on a band value is presented. -/
def showCode (b : Band) (s : State) : State :=
  showStage (.code (bandEncode b).1 (bandEncode b).2 (bandEncodeError (bandEncode b).2)) s

/-- BANDENC alone, on any of the 1024 band values (R153, D22). -/
def execBandenc (b : Band) (s : State) : Host.Outcome State Fault Refusal := .next (showCode b s)

/-- The row of band 160. -/
def execBandenc160 (s : State) : Host.Outcome State Fault Refusal := .next (showCode (rowBand 0) s)

/-- The row of band 80. -/
def execBandenc80 (s : State) : Host.Outcome State Fault Refusal := .next (showCode (rowBand 1) s)

/-- The row of band 60. -/
def execBandenc60 (s : State) : Host.Outcome State Fault Refusal := .next (showCode (rowBand 2) s)

/-- The row of band 40. -/
def execBandenc40 (s : State) : Host.Outcome State Fault Refusal := .next (showCode (rowBand 3) s)

/-- The row of band 30. -/
def execBandenc30 (s : State) : Host.Outcome State Fault Refusal := .next (showCode (rowBand 4) s)

/-- The row of band 20. -/
def execBandenc20 (s : State) : Host.Outcome State Fault Refusal := .next (showCode (rowBand 5) s)

/-- The row of band 17. -/
def execBandenc17 (s : State) : Host.Outcome State Fault Refusal := .next (showCode (rowBand 6) s)

/-- The row of band 15. -/
def execBandenc15 (s : State) : Host.Outcome State Fault Refusal := .next (showCode (rowBand 7) s)

/-- The row of band 12. -/
def execBandenc12 (s : State) : Host.Outcome State Fault Refusal := .next (showCode (rowBand 8) s)

/-- The row of band 10. -/
def execBandenc10 (s : State) : Host.Outcome State Fault Refusal := .next (showCode (rowBand 9) s)

/-- The row of band 6. -/
def execBandenc6 (s : State) : Host.Outcome State Fault Refusal := .next (showCode (rowBand 10) s)

/-- The default row: the sentinel paired with the error (R152). -/
def execBandencUnknown (b : Band) (s : State) : Host.Outcome State Fault Refusal := .next (showCode b s)

end Sys2Proof.Machine
end

