-- ==== Sys2Proof/Machine/BandMapper.lean ====
section
/-!
DEFINITION. BandMapper: the stage BANDMAP and the eleven rows of its range table (`43_band_mapper.md` rules R135 to
R138).
-/

namespace Sys2Proof.Machine

/-- Whether row `r` contains the frequency, with the boundary registers as they stand (R136). -/
def rowContains (los his : Vector Freq 11) (f : Freq) (r : Row) : Bool := inRange (bound los r) (bound his r) f

/-- BANDMAP(f) (R135, R137): rows 0 to 10 in order, the first that contains f gives its band. -/
def bandMap (los his : Vector Freq 11) (f : Freq) : Option Band :=
  ((List.finRange 11).find? (rowContains los his f)).map rowBand

/-- The error BANDMAP raises, exactly when no row contains f (R135, R138). -/
def bandMapError (b : Option Band) : ErrKind :=
  match b with
  | some _ => .noError
  | none => .outOfBand

/-- The test of one row alone (R136): its band if it contains the frequency. -/
def showRow (r : Row) (f : Freq) (s : State) : State :=
  showStage (.row (if rowContains s.bndLo s.bndHi f r then some (rowBand r) else none)) s

/-- BANDMAP alone. -/
def execBandmap (f : Freq) (s : State) : Host.Outcome State Fault Refusal :=
  let b := bandMap s.bndLo s.bndHi f
  .next (showStage (.band b (bandMapError b)) s)

/-- Row 0. -/
def execBandmap160 (f : Freq) (s : State) : Host.Outcome State Fault Refusal := .next (showRow 0 f s)

/-- Row 1. -/
def execBandmap80 (f : Freq) (s : State) : Host.Outcome State Fault Refusal := .next (showRow 1 f s)

/-- Row 2. -/
def execBandmap60 (f : Freq) (s : State) : Host.Outcome State Fault Refusal := .next (showRow 2 f s)

/-- Row 3. -/
def execBandmap40 (f : Freq) (s : State) : Host.Outcome State Fault Refusal := .next (showRow 3 f s)

/-- Row 4. -/
def execBandmap30 (f : Freq) (s : State) : Host.Outcome State Fault Refusal := .next (showRow 4 f s)

/-- Row 5. -/
def execBandmap20 (f : Freq) (s : State) : Host.Outcome State Fault Refusal := .next (showRow 5 f s)

/-- Row 6. -/
def execBandmap17 (f : Freq) (s : State) : Host.Outcome State Fault Refusal := .next (showRow 6 f s)

/-- Row 7. -/
def execBandmap15 (f : Freq) (s : State) : Host.Outcome State Fault Refusal := .next (showRow 7 f s)

/-- Row 8. -/
def execBandmap12 (f : Freq) (s : State) : Host.Outcome State Fault Refusal := .next (showRow 8 f s)

/-- Row 9. -/
def execBandmap10 (f : Freq) (s : State) : Host.Outcome State Fault Refusal := .next (showRow 9 f s)

/-- Row 10. -/
def execBandmap6 (f : Freq) (s : State) : Host.Outcome State Fault Refusal := .next (showRow 10 f s)

end Sys2Proof.Machine
end

