-- ==== Sys2Proof/Machine/Filter.lean ====
section
/-!
DEFINITION. FrequencyMessageFilter: the stage FILTER (`41_filter.md` rules R110, R111).
-/

namespace Sys2Proof.Machine

/-- FILTER(F, FLEN, overlong) (R110). The length is tested before any byte is looked at; bytes 0, 1 and 4 are not
examined (R111). -/
def filterFrame (f : Frame) : Bool :=
  if f.overlong then false
  else if f.flen ≠ Config.msgLen then false
  else if frameByte f Config.id2Off ≠ Config.id2Val then false
  else if frameByte f Config.id3Off ≠ Config.id3Val then false
  else true

end Sys2Proof.Machine
end

