-- ==== Sys2Proof/Machine/FrequencyDecoder.lean ====
section
/-!
DEFINITION. FrequencyDecoder: the stage BCDDEC (`42_bcd_decoder.md` rules R120 to R124).
-/

namespace Sys2Proof.Machine

/-- The decimal value of a digit string, the most significant digit first: v := 10 * v + DIG[j] (R123). -/
def decimalValue (ds : List (BitVec 4)) : Nat := ds.foldl (fun v n => 10 * v + n.toNat) 0

/-- The frequency of a digit word: none when some nibble is 0xA to 0xF (R120, R122, R123). -/
def bcdFrequency (d : Digits) : Option Freq :=
  if digitsValid d then some (BitVec.ofNat 34 (decimalValue (digitList d))) else none

/-- The error BCDDEC raises (R122). -/
def bcdError (d : Digits) : ErrKind := if digitsValid d then .noError else .malformedBcdDigits

/-- BCDDEC alone, on the bytes F[5] to F[9]. -/
def execBcddec (fq0 fq1 fq2 fq3 fq4 : Byte) (s : State) : Host.Outcome State Fault Refusal :=
  let d := packOperand fq0 fq1 fq2 fq3 fq4
  .next (showStage (.decoded d (bcdFrequency d) (bcdError d)) s)

end Sys2Proof.Machine
end

