-- ==== Sys2Proof/Machine/Pipeline.lean ====
section
/-!
DEFINITION. PIPE, the composition of the four stages that a TERM step evaluates (`45_pipeline.md` rules R161, R164), and
FILTER, PIPE and the two frame classes evaluated alone.
-/

namespace Sys2Proof.Machine

/-- The last stage of PIPE: the record `r` with its band, and the code of BANDENC or UnknownBandCode (R161). -/
def pipeEncode (r : Record) (b : Band) : Record :=
  if (bandEncode b).2 then { r with band := some b, code := some (bandEncode b).1 }
  else { r with band := some b, err := .unknownBandCode }

/-- The third stage of PIPE: the record `r` with its frequency, and BANDMAP's band or OutOfBand (R161). -/
def pipeMap (los his : Vector Freq 11) (r : Record) (f : Freq) : Record :=
  match bandMap los his f with
  | some b => pipeEncode { r with freq := some f } b
  | none => { r with freq := some f, err := .outOfBand }

/-- The second stage of PIPE: the record `r` of an accepted frame with its digits, and BCDDEC's frequency or
MalformedBCDDigits (R161). -/
def pipeDecode (los his : Vector Freq 11) (r : Record) (d : Digits) : Record :=
  match bcdFrequency d with
  | some f => pipeMap los his { r with accepted := some true, digits := some d } f
  | none => { r with accepted := some true, digits := some d, err := .malformedBcdDigits }

/-- PIPE(F, FLEN, overlong) (R161): a pure function of the completed frame and the 22 boundary registers. -/
def pipe (los his : Vector Freq 11) (f : Frame) : Record :=
  if filterFrame f then pipeDecode los his (frameRecord f) (frequencyField f) else frameRecord f

/-- The record of a completed frame is presented. -/
def showRecord (f : Frame) (s : State) : State := showStage (.record (pipe s.bndLo s.bndHi f)) s

/-- FILTER alone (R110). -/
def execFilter (f : Frame) (s : State) : Host.Outcome State Fault Refusal :=
  .next (showStage (.filter (filterFrame f)) s)

/-- PIPE alone (R161). -/
def execPipe (f : Frame) (s : State) : Host.Outcome State Fault Refusal := .next (showRecord f s)

/-- A completed frame of the class FREQMSG, evaluated as a TERM step would (R63, R72). -/
def execFreqmsg (h0 h1 : Byte) (h4 : List Byte) (fq0 fq1 fq2 fq3 fq4 : Byte) (s : State) :
    Host.Outcome State Fault Refusal :=
  .next (showRecord (freqMsgFrame h0 h1 h4 fq0 fq1 fq2 fq3 fq4) s)

/-- A completed frame of the class OTHER, evaluated as a TERM step would (R63, R112). -/
def execOther (f : Frame) (s : State) : Host.Outcome State Fault Refusal := .next (showRecord f s)

end Sys2Proof.Machine
end

