-- ==== Sys2Proof/Machine/FrameReader.lean ====
section
/-!
DEFINITION. FrameReader: the stream operations ACC, TERM, NODATA and RDERR (`40_framereader.md` rules R90 to R96).
-/

namespace Sys2Proof.Machine

/-- The frame a terminator completes, and the state with the terminator stored where it fits (R91): with LEN below
FRAME_CAP the bytes held and the terminator, otherwise the first FRAME_CAP bytes only, overlong; FLEN is LEN + 1 (R92). -/
def completeFrame (s : State) : Host.Outcome (Frame × State) Fault Refusal :=
  if s.len < s.frameCap then
    andThen (bufReadPrefix s.len s) fun bytes =>
      andThen (bufWrite s.len Config.termByte s) fun t =>
        .next (⟨bytes ++ [Config.termByte], s.len + 1, false⟩, t)
  else
    andThen (bufReadPrefix s.frameCap s) fun bytes => .next (⟨bytes, s.len + 1, true⟩, s)

/-- ACC (R90): the byte is stored at LEN, or dropped when the buffer is full. -/
def execAcc (b : Byte) (s : State) : Host.Outcome State Fault Refusal :=
  whenRunning s <|
    if s.len < s.frameCap then andThen (bufWrite s.len b s) fun t => .next (quiet (setLen (s.len + 1) t))
    else .next (quiet s)

/-- TERM (R91): the frame is completed, PIPE's record of it is emitted, and the buffer is emptied. -/
def execTerm (s : State) : Host.Outcome State Fault Refusal :=
  whenRunning s <|
    andThen (completeFrame s) fun p => .next (emit (pipe s.bndLo s.bndHi p.1) (setLen 0 p.2))

/-- NODATA (R96): no state change, no output. -/
def execNodata (s : State) : Host.Outcome State Fault Refusal := whenRunning s (.next (quiet s))

/-- RDERR (R94): the block halts, the partial frame is abandoned, StreamReadError is emitted. -/
def execRderr (s : State) : Host.Outcome State Fault Refusal := whenRunning s (.next (takeStreamError s))

end Sys2Proof.Machine
end

