-- ==== Sys2Proof/Machine/System.lean ====
section
/-!
DEFINITION. The system operations RST and CFGWR (`46_system.md` rules R175 to R180).
-/

namespace Sys2Proof.Machine

/-- RST (R175): the one event that has an effect while HALT = 1. -/
def execRst (s : State) : Host.Outcome State Fault Refusal := .next (resetBlock s)

/-- CFGWR(a, v) (R176, R177), ignored while HALT = 1 (R180). -/
def execCfgwr (a : CfgAddr) (v : Freq) (s : State) : Host.Outcome State Fault Refusal :=
  whenRunning s (.next (quiet (writeBoundary a v s)))

end Sys2Proof.Machine
end

