-- ==== Sys2Proof/Machine/Dispatch.lean ====
section
/-!
DEFINITION. The meaning of every instruction, one arm per constructor of `Instr` (`30_encoding.md` rule R72).
-/

namespace Sys2Proof.Machine

def exec (i : Instr) (s : State) : Host.Outcome State Fault Refusal :=
  match i with
  | .rst => Sys2Proof.Machine.execRst s
  | .rderr => Sys2Proof.Machine.execRderr s
  | .term => Sys2Proof.Machine.execTerm s
  | .acc b => Sys2Proof.Machine.execAcc b s
  | .nodata => Sys2Proof.Machine.execNodata s
  | .cfgwr a v => Sys2Proof.Machine.execCfgwr a v s
  | .freqmsg h0 h1 h4 fq0 fq1 fq2 fq3 fq4 => Sys2Proof.Machine.execFreqmsg h0 h1 h4 fq0 fq1 fq2 fq3 fq4 s
  | .other f => Sys2Proof.Machine.execOther f s
  | .filter f => Sys2Proof.Machine.execFilter f s
  | .bcddec fq0 fq1 fq2 fq3 fq4 => Sys2Proof.Machine.execBcddec fq0 fq1 fq2 fq3 fq4 s
  | .bandmap f => Sys2Proof.Machine.execBandmap f s
  | .bandenc b => Sys2Proof.Machine.execBandenc b s
  | .pipe f => Sys2Proof.Machine.execPipe f s
  | .bandmap160 f => Sys2Proof.Machine.execBandmap160 f s
  | .bandmap80 f => Sys2Proof.Machine.execBandmap80 f s
  | .bandmap60 f => Sys2Proof.Machine.execBandmap60 f s
  | .bandmap40 f => Sys2Proof.Machine.execBandmap40 f s
  | .bandmap30 f => Sys2Proof.Machine.execBandmap30 f s
  | .bandmap20 f => Sys2Proof.Machine.execBandmap20 f s
  | .bandmap17 f => Sys2Proof.Machine.execBandmap17 f s
  | .bandmap15 f => Sys2Proof.Machine.execBandmap15 f s
  | .bandmap12 f => Sys2Proof.Machine.execBandmap12 f s
  | .bandmap10 f => Sys2Proof.Machine.execBandmap10 f s
  | .bandmap6 f => Sys2Proof.Machine.execBandmap6 f s
  | .bandenc160 => Sys2Proof.Machine.execBandenc160 s
  | .bandenc80 => Sys2Proof.Machine.execBandenc80 s
  | .bandenc60 => Sys2Proof.Machine.execBandenc60 s
  | .bandenc40 => Sys2Proof.Machine.execBandenc40 s
  | .bandenc30 => Sys2Proof.Machine.execBandenc30 s
  | .bandenc20 => Sys2Proof.Machine.execBandenc20 s
  | .bandenc17 => Sys2Proof.Machine.execBandenc17 s
  | .bandenc15 => Sys2Proof.Machine.execBandenc15 s
  | .bandenc12 => Sys2Proof.Machine.execBandenc12 s
  | .bandenc10 => Sys2Proof.Machine.execBandenc10 s
  | .bandenc6 => Sys2Proof.Machine.execBandenc6 s
  | .bandencUnknown b => Sys2Proof.Machine.execBandencUnknown b s

end Sys2Proof.Machine
end

