-- ==== Sys2Proof/Machine/Fetch.lean ====
section
/-!
DEFINITION. How the next operation is selected (`00_scope.md` rule R11, `30_encoding.md` rules R61, R62). The block
fetches nothing: its operations are the events presented to it, in the order in which they arrive (`20_memory.md` rule
R50).
-/

namespace Sys2Proof.Machine

/-- The next operation and the state in which it runs, with what it was selected from taken from the input. With nothing
presented the ports are idle, and idle ports are the event NODATA (R61, R209; DEDUCED, log entry 1). -/
def fetch (s : State) : Host.Outcome (Instr × State) Fault Refusal :=
  match s.input with
  | [] => .next (.nodata, s)
  | w :: rest =>
    match decode w with
    | .ok i => .next (i, setInput (restOfWord w ++ rest) s)
    | .error e => .refused (.undecodable e)

/-- A vector of the opcode table presented as the next word (log entry 7). -/
def presentTableWord (nbits w : Nat) (s : State) : State := present (tableWord nbits w) s

end Sys2Proof.Machine
end

