-- ==== Sys2Proof/Machine/Step.lean ====
section
/-!
DEFINITION. One step of the machine: one event is taken and handled to completion (`00_scope.md` rule R11,
`20_memory.md` rule R46).
-/

namespace Sys2Proof.Machine

/-- One step: the next operation is selected and executed. -/
def step (s : State) : Host.Outcome State Fault Refusal :=
  andThen (fetch s) fun p => exec p.1 p.2

/-- The state with a vector of the opcode table presented, so that the next step runs it. Nothing else changes. -/
def State.withFetchWord (s : State) (nbits w : Nat) : State := presentTableWord nbits w s

end Sys2Proof.Machine
end

