-- ==== Sys2Proof/Machine/Run.lean ====
section
/-!
DEFINITION. Runs (`45_pipeline.md` rule R168, `00_scope.md` rule R11): the fold of the meanings over a finite sequence of
operations, and what is observed of it.
-/

namespace Sys2Proof.Machine

/-- A run of a finite sequence of operations from a state: the records emitted, in order, and the final state (R168). -/
def run : List Instr → State → Host.Outcome (List Record × State) Fault Refusal
  | [], s => .next ([], s)
  | i :: is, s =>
    andThen (exec i s) fun t => andThen (run is t) fun p => .next (t.out.toList ++ p.1, p.2)

/-- The event BYTE(b) (R60): TERM for the terminator, ACC for every other byte. -/
def byteEvent (b : Byte) : Instr := if b = Config.termByte then .term else .acc b

end Sys2Proof.Machine
end

