-- ==== Sys2Proof/Machine/Signals.lean ====
section
/-!
DEFINITION. The outputs at signal level (`45_pipeline.md` rule R163), read off the state a step leads to. What the spec
calls unspecified is `none` here (D23, log entry 14).
-/

namespace Sys2Proof.Machine

/-- The output signals (R163). `outFrame` lists the bytes of `out_frame` that the spec gives a value. -/
structure Signals where
  outFrameDone   : Bool
  outStreamError : Bool
  outFrame       : Option (List Byte)
  outFlen        : Option Nat
  outOverlong    : Option Bool
  outMatch       : Option Bool
  outDigits      : Option Digits
  outFreqValid   : Option Bool
  outFreq        : Option Freq
  outBandValid   : Option Bool
  outBand        : Option Band
  outCodeValid   : Option Bool
  outCode        : Option (BitVec 4)
  outErr         : Option (BitVec 3)
  /-- HALT after the step (DESIGN CHOICE, log entry 21). -/
  halted         : Bool
  deriving DecidableEq, Repr

/-- `out_code` of a record: the packed code where there is one; the sentinel under UnknownBandCode; otherwise
unspecified (R163). -/
def codeSignal (r : Record) : Option (BitVec 4) :=
  match r.code with
  | some c => some (packCode c)
  | none => if r.err = .unknownBandCode then some (packCode Config.sentinel) else none

/-- The signals in a step that emits nothing: neither done bit, the level `halted`, all else unspecified (R163). -/
def idleSignals (halted : Bool) : Signals where
  outFrameDone := false
  outStreamError := false
  outFrame := none
  outFlen := none
  outOverlong := none
  outMatch := none
  outDigits := none
  outFreqValid := none
  outFreq := none
  outBandValid := none
  outBand := none
  outCodeValid := none
  outCode := none
  outErr := none
  halted := halted

/-- The signals in a step that emits a record (R163). -/
def recordSignals (r : Record) (halted : Bool) : Signals where
  outFrameDone := decide (r.kind = .frame)
  outStreamError := decide (r.kind = .streamError)
  outFrame := r.frame
  outFlen := r.flen
  outOverlong := r.overlong
  outMatch := r.accepted
  outDigits := r.digits
  outFreqValid := some r.freq.isSome
  outFreq := r.freq
  outBandValid := some r.band.isSome
  outBand := r.band
  outCodeValid := some r.code.isSome
  outCode := codeSignal r
  outErr := some (errCode r.err)
  halted := halted

/-- The output signals of the step that led to a state (R163). The level `halted` shows HALT as the step leaves it: 1 in
an RDERR step taken while running, together with `out_stream_error` = 1, and 0 in an RST step out of the halted state
(DESIGN CHOICE, unsafe, log entry 21: R163 says `halted` = HALT, not whether before or after the step). -/
def signals (s : State) : Signals :=
  match s.out with
  | some r => recordSignals r s.halt
  | none => idleSignals s.halt

end Sys2Proof.Machine
end

