-- ==== Sys2Proof/Safety.lean ====
section
/-!
DEFINITION. The terms in which claims are made: the well-formed states (`10_state.md` rule R33), what a run that ended
halted counts for (`93_implementation_defined.md` U3), what it is for two states to agree, and the shapes of a record
(`45_pipeline.md` rule R165).
-/

namespace Sys2Proof.Machine

/-- No byte of the frame under construction is the terminator: it would have ended the frame (R60, R63). -/
def framing (s : State) : Bool := (List.range s.len).all fun i => s.buf.read i != Config.termByte

/-- The well-formed states: FRAME_CAP is a value the spec allows (R8), LEN is at most FRAME_CAP (R33), the frame buffer
is in canonical form and inside its space (R29), and the frame under construction holds no terminator. The bound of R33
on the boundary registers holds by their type. -/
def State.wf (s : State) : Bool :=
  decide (Config.minFrameCap ≤ s.frameCap) && decide (s.len ≤ s.frameCap) && s.buf.wf && s.buf.below s.frameCap
    && framing s

/-- HALT = 1 is a recorded fault (R95, U3): a run that ends so has not succeeded. -/
def faulted (s : State) : Bool := s.halt

/-- The bytes accumulated for the frame under construction, the document's partial frame (R26, R30). -/
def partialFrame (s : State) : List Byte := (List.range s.len).map s.buf.read

/-- The five elements of the spec's state, FRAME_CAP and the input not yet taken are the same in both states. -/
def SameMachine (s t : State) : Prop :=
  t.halt = s.halt ∧ t.len = s.len ∧ t.buf = s.buf ∧ t.bndLo = s.bndLo ∧ t.bndHi = s.bndHi ∧ t.frameCap = s.frameCap
    ∧ t.input = s.input

/-- Nothing was output by the step that led to the state: no record and no stage value. -/
def Silent (t : State) : Prop := t.out = none ∧ t.stage = none

/-- The step that led to the state presented the value of an operation evaluated alone, and no record. -/
def Shows (t : State) (v : StageValue) : Prop := t.out = none ∧ t.stage = some v

/-- The step that led to the state emitted this record. -/
def Emits (t : State) (r : Record) : Prop := t.out = some r ∧ t.stage = none

/-- Two states that a run cannot tell apart: the same HALT, LEN, boundaries and FRAME_CAP, and the same bytes below LEN.
Bytes of the buffer from LEN up may differ (R21). -/
def Agree (s t : State) : Prop :=
  s.halt = t.halt ∧ s.len = t.len ∧ s.frameCap = t.frameCap ∧ s.bndLo = t.bndLo ∧ s.bndHi = t.bndHi
    ∧ partialFrame s = partialFrame t

/-- The seven shapes of a record (R165). -/
inductive Shape where
  | s1 | s2 | s3 | s4 | s5 | s6 | s7
  deriving DecidableEq, Repr

/-- The shape of the table of R165 that a record has, or none. -/
def Record.shape (r : Record) : Option Shape :=
  match r.kind, r.frame.isSome && r.flen.isSome, r.accepted, r.overlong, r.digits.isSome, r.freq.isSome, r.band.isSome,
    r.code.isSome, r.err with
  | .frame, true, some false, some false, false, false, false, false, .noError => some .s1
  | .frame, true, some false, some true, false, false, false, false, .frameOverlong => some .s2
  | .frame, true, some true, some false, true, false, false, false, .malformedBcdDigits => some .s3
  | .frame, true, some true, some false, true, true, false, false, .outOfBand => some .s4
  | .frame, true, some true, some false, true, true, true, false, .unknownBandCode => some .s5
  | .frame, true, some true, some false, true, true, true, true, .noError => some .s6
  | .streamError, false, none, none, false, false, false, false, .streamReadError =>
    if r.frame = none ∧ r.flen = none then some .s7 else none
  | _, _, _, _, _, _, _, _, _ => none

/-- The record of a completed frame that FILTER does not accept (R112; shapes S1 and S2 of R165). -/
def rejection (f : Frame) : Record where
  kind := .frame
  frame := some f.bytes
  flen := some f.flen
  overlong := some f.overlong
  accepted := some false
  digits := none
  freq := none
  band := none
  code := none
  err := if f.overlong then .frameOverlong else .noError

/-- The number that ten digits write: DIG[j] weighted by 10^(9-j) (R120, R123). -/
def digitSum (d : Digits) : Nat :=
  (digit d 0).toNat * 1000000000 + (digit d 1).toNat * 100000000 + (digit d 2).toNat * 10000000
    + (digit d 3).toNat * 1000000 + (digit d 4).toNat * 100000 + (digit d 5).toNat * 10000 + (digit d 6).toNat * 1000
    + (digit d 7).toNat * 100 + (digit d 8).toNat * 10 + (digit d 9).toNat

/-- Row `r` contains `f`: BND_LO[r] <= f and f <= BND_HI[r], as numbers (R135, R136). -/
def InRow (los his : Vector Freq 11) (r : Row) (f : Freq) : Prop :=
  (bound los r).toNat ≤ f.toNat ∧ f.toNat ≤ (bound his r).toNat

/-- Row `r` is the first that contains `f` (R135, R137). -/
def FirstRow (los his : Vector Freq 11) (r : Row) (f : Freq) : Prop :=
  InRow los his r f ∧ ∀ q, q < r → ¬ InRow los his q f

/-- What the record of an accepted frame says after its digits `d` (R161): malformed digits; or the frequency and out of
band; or the frequency, the band of the first row that contains it and the code of that band. -/
def StageResults (los his : Vector Freq 11) (d : Digits) (r : Record) : Prop :=
  ((∃ j, j < 10 ∧ 9 < (digit d j).toNat) →
    r.freq = none ∧ r.band = none ∧ r.code = none ∧ r.err = .malformedBcdDigits) ∧
  ((∀ j, j < 10 → (digit d j).toNat ≤ 9) →
    ∃ q : Freq, r.freq = some q ∧ q.toNat = digitSum d ∧
      ((∀ w, ¬ InRow los his w q) → r.band = none ∧ r.code = none ∧ r.err = .outOfBand) ∧
      (∀ w, FirstRow los his w q → r.band = some (rowBand w) ∧ (∃ c, (rowBand w, c) ∈ Config.bandCodes ∧ r.code = some c)
        ∧ r.err = .noError))

/-- The bytes that a sequence of ACC, NODATA and CFGWR events feeds, in order; none if another operation occurs. -/
def bytesFed : List Instr → Option (List Byte)
  | [] => some []
  | .acc b :: is => (bytesFed is).map (b :: ·)
  | .nodata :: is => bytesFed is
  | .cfgwr _ _ :: is => bytesFed is
  | _ :: _ => none

/-- The operations that are events of the block (R11, R72); the others are evaluated alone. -/
def isEvent : Instr → Bool
  | .rst => true
  | .rderr => true
  | .term => true
  | .acc _ => true
  | .nodata => true
  | .cfgwr _ _ => true
  | .freqmsg _ _ _ _ _ _ _ _ => false
  | .other _ => false
  | .filter _ => false
  | .bcddec _ _ _ _ _ => false
  | .bandmap _ => false
  | .bandenc _ => false
  | .pipe _ => false
  | .bandmap160 _ => false
  | .bandmap80 _ => false
  | .bandmap60 _ => false
  | .bandmap40 _ => false
  | .bandmap30 _ => false
  | .bandmap20 _ => false
  | .bandmap17 _ => false
  | .bandmap15 _ => false
  | .bandmap12 _ => false
  | .bandmap10 _ => false
  | .bandmap6 _ => false
  | .bandenc160 => false
  | .bandenc80 => false
  | .bandenc60 => false
  | .bandenc40 => false
  | .bandenc30 => false
  | .bandenc20 => false
  | .bandenc17 => false
  | .bandenc15 => false
  | .bandenc12 => false
  | .bandenc10 => false
  | .bandenc6 => false
  | .bandencUnknown _ => false

end Sys2Proof.Machine
end

