-- ==== Sys2Proof/Certificates/Slice0/Obligations.lean ====
section
/-!
DEFINITION. The statements about the model, each formalising rules of `spec/`. `SameMachine`, `Silent`, `Shows`, `Emits`
and `Agree` are defined in Sys2Proof/Safety.lean: together they are the frame of an instruction.
-/

open Sys2Proof
open Sys2Proof.Machine

/-! ## Reset and the state -/

/-- R31: the machine right after reset, with the boundary registers at the values of the document's table. The buffer's
contents and FRAME_CAP at reset are the model's choices (log entries 4 and 5) and are not stated. -/
def Obligations.ResetStateHoldsTheDocumentsTable : Prop :=
  State.reset.halt = false ∧ State.reset.len = 0 ∧
  State.reset.bndLo.toList.map BitVec.toNat = [1810000, 3500000, 5250000, 7000000, 10100000, 14000000, 18068000, 21000000,
    24890000, 28000000, 50000000] ∧
  State.reset.bndHi.toList.map BitVec.toNat = [2000000, 3800000, 5450000, 7200000, 10150000, 14350000, 18168000, 21450000,
    24990000, 29700000, 52000000]

/-- The reset state is well formed (R33, R8). -/
def Obligations.ResetStateIsWellFormed : Prop := State.reset.wf = true

/-- Every step keeps the well-formed states (R33, R8, R29, R60): FRAME_CAP stays at least 11, LEN at most FRAME_CAP, the
frame buffer canonical and inside its space, and no byte of the frame under construction is the terminator. -/
def Obligations.StepKeepsWellFormedStates : Prop :=
  ∀ s t : State, s.wf = true → step s = .next t → t.wf = true

/-! ## The events -/

/-- RST from every state, halted or not (R175): HALT and LEN cleared, every boundary at its reset value, the buffer not
written, no output. -/
def Obligations.RstRestoresResetValues : Prop :=
  ∀ s : State, ∃ t, exec .rst s = .next t ∧ t.halt = false ∧ t.len = 0 ∧
    (∀ r : Row, bound t.bndLo r = bound State.reset.bndLo r ∧ bound t.bndHi r = bound State.reset.bndHi r) ∧
    t.buf = s.buf ∧ t.frameCap = s.frameCap ∧ t.input = s.input ∧ Silent t

/-- RDERR while running (R94, R162): HALT set, the partial frame abandoned, one record that carries the error kind and
nothing else; the buffer and the boundaries are not changed. -/
def Obligations.RderrHaltsAndReportsStreamError : Prop :=
  ∀ s : State, s.halt = false → ∃ t r, exec .rderr s = .next t ∧ t.halt = true ∧ t.len = 0 ∧ t.buf = s.buf ∧
    t.bndLo = s.bndLo ∧ t.bndHi = s.bndHi ∧ t.frameCap = s.frameCap ∧ t.input = s.input ∧ Emits t r ∧
    r.kind = .streamError ∧ r.err = .streamReadError ∧ r.frame = none ∧ r.flen = none ∧ r.overlong = none ∧
    r.accepted = none ∧ r.digits = none ∧ r.freq = none ∧ r.band = none ∧ r.code = none

/-- NODATA (R96): no state change and no output, in every state. -/
def Obligations.NodataChangesNothing : Prop :=
  ∀ s : State, ∃ t, exec .nodata s = .next t ∧ SameMachine s t ∧ Silent t

/-- ACC while running, with its frame (R90): below FRAME_CAP the byte is stored at LEN and LEN advances by one; at
FRAME_CAP the byte is dropped. Every other index of the buffer reads as before. -/
def Obligations.AccStoresAtLenOrDrops : Prop :=
  ∀ (s : State) (b : Byte), s.halt = false → s.buf.wf = true → ∃ t, exec (.acc b) s = .next t ∧ Silent t ∧
    t.halt = false ∧ t.bndLo = s.bndLo ∧ t.bndHi = s.bndHi ∧ t.frameCap = s.frameCap ∧ t.input = s.input ∧
    (s.len < s.frameCap → t.len = s.len + 1 ∧ t.buf.read s.len = b ∧
      ∀ a, a ≠ s.len → t.buf.read a = s.buf.read a) ∧
    (s.frameCap ≤ s.len → t.len = s.len ∧ ∀ a, t.buf.read a = s.buf.read a)

/-- TERM while running, LEN below FRAME_CAP, with its frame (R91): the terminator is stored at LEN, LEN is cleared, and
the record is PIPE's of the bytes held and the terminator, with FLEN = LEN + 1. -/
def Obligations.TermCompletesAFrameThatFits : Prop :=
  ∀ s : State, s.halt = false → s.buf.wf = true → s.len < s.frameCap → ∃ t, exec .term s = .next t ∧ t.halt = false ∧
    t.len = 0 ∧ t.bndLo = s.bndLo ∧ t.bndHi = s.bndHi ∧ t.frameCap = s.frameCap ∧ t.input = s.input ∧
    t.buf.read s.len = 0xFD#8 ∧ (∀ a, a ≠ s.len → t.buf.read a = s.buf.read a) ∧
    Emits t (pipe s.bndLo s.bndHi ⟨partialFrame s ++ [0xFD#8], s.len + 1, false⟩)

/-- TERM while running with a full buffer, with its frame (R91, R93): the first FRAME_CAP bytes are reported, overlong,
with FLEN = FRAME_CAP + 1 and FrameOverlong; nothing qualifies, nothing is stored, and framing starts anew. -/
def Obligations.TermReportsAnOverlongFrame : Prop :=
  ∀ s : State, s.halt = false → s.len = s.frameCap → ∃ t, exec .term s = .next t ∧ t.halt = false ∧ t.len = 0 ∧
    t.bndLo = s.bndLo ∧ t.bndHi = s.bndHi ∧ t.frameCap = s.frameCap ∧ t.input = s.input ∧
    (∀ a, t.buf.read a = s.buf.read a) ∧
    Emits t { kind := .frame, frame := some (partialFrame s), flen := some (s.frameCap + 1), overlong := some true,
              accepted := some false, digits := none, freq := none, band := none, code := none, err := .frameOverlong }

/-- The reported length (R92): LEN before the step plus one, from 1 to FRAME_CAP + 1; up to FRAME_CAP the exact number of
bytes of the frame; FRAME_CAP + 1 exactly when overlong; and only a frame of length 11 is accepted. -/
def Obligations.ReportedLengthIsLenPlusOne : Prop :=
  ∀ s : State, s.wf = true → s.halt = false → ∃ t r bytes, exec .term s = .next t ∧ Emits t r ∧
    r.frame = some bytes ∧ r.flen = some (s.len + 1) ∧ s.len + 1 ≤ s.frameCap + 1 ∧
    (s.len + 1 ≤ s.frameCap → bytes.length = s.len + 1 ∧ r.overlong = some false) ∧
    (s.len + 1 = s.frameCap + 1 → bytes.length = s.frameCap ∧ r.overlong = some true) ∧
    (r.accepted = some true → s.len + 1 = 11)

/-- CFGWR while running, with its frame (R176, R177): the low bound of row r is written at address 2r and its high bound
at 2r + 1; every other bound, and everything else, is as before. No row has an address above 21. -/
def Obligations.CfgwrWritesExactlyOneBound : Prop :=
  ∀ (s : State) (a : CfgAddr) (v : Freq), s.halt = false → ∃ t, exec (.cfgwr a v) s = .next t ∧ Silent t ∧
    t.halt = false ∧ t.len = s.len ∧ t.buf = s.buf ∧ t.frameCap = s.frameCap ∧ t.input = s.input ∧
    ∀ r : Row, bound t.bndLo r = (if a.toNat = 2 * r.val then v else bound s.bndLo r) ∧
      bound t.bndHi r = (if a.toNat = 2 * r.val + 1 then v else bound s.bndHi r)

/-- CFGWR to a reserved address, 22 to 31 (R177): no state changes, nothing is output. -/
def Obligations.CfgwrToReservedAddressDoesNothing : Prop :=
  ∀ (s : State) (a : CfgAddr) (v : Freq), 22 ≤ a.toNat → ∃ t, exec (.cfgwr a v) s = .next t ∧ SameMachine s t ∧ Silent t

/-- While HALT = 1 every event but RST changes no state and outputs nothing, and RST leaves the halted state (R95,
R180). -/
def Obligations.HaltedBlockIgnoresAllButRst : Prop :=
  ∀ s : State, s.halt = true →
    (∀ i, isEvent i = true → i ≠ .rst → ∃ t, exec i s = .next t ∧ SameMachine s t ∧ Silent t) ∧
    (∀ i t, exec i s = .next t → t.halt = false → i = .rst) ∧ (∃ t, exec .rst s = .next t ∧ t.halt = false)

/-! ## Rules about the whole machine -/

/-- R11: the step function of the spec is total: every operation has a next state in every state. No meaning faults or
refuses. -/
def Obligations.EveryOperationHasANextState : Prop := ∀ (i : Instr) (s : State), ∃ t, exec i s = .next t

/-- R191: StreamReadError is raised by every RDERR taken with HALT = 0 and by nothing else, and no other operation
halts a running block. -/
def Obligations.OnlyRderrRaisesStreamReadError : Prop :=
  ∀ (i : Instr) (s t : State), exec i s = .next t →
    ((∃ r, t.out = some r ∧ r.err = .streamReadError) ↔ (i = .rderr ∧ s.halt = false)) ∧
    (s.halt = false → t.halt = true → i = .rderr)

/-- R25, R32, R8: the boundary registers are written by CFGWR and RST only, and FRAME_CAP by nothing. -/
def Obligations.OnlyCfgwrAndRstWriteBoundaries : Prop :=
  ∀ (i : Instr) (s t : State), exec i s = .next t → t.frameCap = s.frameCap ∧
    (t.bndLo ≠ s.bndLo ∨ t.bndHi ≠ s.bndHi → i = .rst ∨ ∃ a v, i = .cfgwr a v)

/-- R21: the buffer is written one byte at a time, at index LEN, by ACC and TERM, and by nothing else. -/
def Obligations.OnlyAccAndTermWriteBufAtLen : Prop :=
  ∀ (i : Instr) (s t : State) (a : Nat), exec i s = .next t → t.buf.read a ≠ s.buf.read a →
    a = s.len ∧ s.len < s.frameCap ∧ s.halt = false ∧ (i = .term ∨ ∃ b, i = .acc b)

/-- R91, R94, R96, R175, R176: a record is emitted by every TERM and every RDERR step taken while running, and by no
other operation. -/
def Obligations.RecordsComeFromTermAndRderrOnly : Prop :=
  ∀ (i : Instr) (s t : State), exec i s = .next t →
    (t.out.isSome = true ↔ s.halt = false ∧ (i = .term ∨ i = .rderr))

/-- R197: after a record with any error kind but StreamReadError the block is running with an empty buffer and its
boundaries unchanged; after StreamReadError it is halted. -/
def Obligations.OnlyStreamReadErrorStopsTheBlock : Prop :=
  ∀ (i : Instr) (s t : State) (r : Record), exec i s = .next t → t.out = some r →
    (r.err ≠ .streamReadError → t.halt = false ∧ t.len = 0 ∧ t.bndLo = s.bndLo ∧ t.bndHi = s.bndHi) ∧
    (r.err = .streamReadError → t.halt = true)

/-- R165, R153: every record, emitted or evaluated alone, has one of the seven shapes, and never S5. -/
def Obligations.RecordsHaveTheShapesOfTheTable : Prop :=
  ∀ (i : Instr) (s t : State) (r : Record), exec i s = .next t → (t.out = some r ∨ t.stage = some (.record r)) →
    ∃ sh, r.shape = some sh ∧ sh ≠ .s5

/-- R47: repeating NODATA, CFGWR, RST or RDERR leaves the state that the first one left, and the second RDERR emits
nothing. -/
def Obligations.RepeatedSystemEventsAreIdempotent : Prop :=
  ∀ (i : Instr) (s t : State), (i = .nodata ∨ i = .rst ∨ i = .rderr ∨ ∃ a v, i = .cfgwr a v) → exec i s = .next t →
    ∃ u, exec i t = .next u ∧ SameMachine t u ∧ Silent u

/-- R20: nothing but the architectural state persists. What stood at the ports before an operation, the outputs of the
step before among it, changes neither the state it leads to nor what it outputs; and it leaves the input as it was. -/
def Obligations.NothingButTheArchitecturalStatePersists : Prop :=
  ∀ (i : Instr) (s : State) (p : Ports), ∃ t u, exec i s = .next t ∧ exec i { s with ports := p } = .next u ∧
    u.halt = t.halt ∧ u.len = t.len ∧ u.buf = t.buf ∧ u.bndLo = t.bndLo ∧ u.bndHi = t.bndHi ∧ u.frameCap = t.frameCap ∧
    u.out = t.out ∧ u.stage = t.stage ∧ t.input = s.input ∧ u.input = p.input

/-- The model's choice (log entry 2, after D22): an operation that is no event of the block is evaluated alone; it
presents a value, emits no record and changes nothing of the machine, halted or not. -/
def Obligations.StageOperationsChangeNoState : Prop :=
  ∀ (i : Instr) (s : State), isEvent i = false → ∃ t, exec i s = .next t ∧ SameMachine s t ∧ t.out = none ∧
    t.stage.isSome = true

/-! ## The stages -/

/-- FILTER on every completed frame (R110): true exactly for a frame that is not overlong, has length 11, byte 2 equal to
0x00 and byte 3 equal to 0x94. -/
def Obligations.FilterAcceptsFrequencyMessagesOnly : Prop :=
  ∀ (s : State) (f : Frame), f.wf = true → ∃ t v, exec (.filter f) s = .next t ∧ SameMachine s t ∧
    Shows t (.filter v) ∧
    (v = true ↔ f.overlong = false ∧ f.bytes.length = 11 ∧ f.bytes[2]? = some 0x00#8 ∧ f.bytes[3]? = some 0x94#8)

/-- A frame of the class FREQMSG (R63, R110, R161), whatever bytes 0, 1 and 4 hold (R111): accepted, with the digits of
its five frequency bytes reversed and the results of the later stages. -/
def Obligations.FreqmsgFramesAreAcceptedAndDecoded : Prop :=
  ∀ (s : State) (h0 h1 h4 fq0 fq1 fq2 fq3 fq4 : Byte), ∃ t r,
    exec (.freqmsg h0 h1 [h4] fq0 fq1 fq2 fq3 fq4) s = .next t ∧ SameMachine s t ∧ Shows t (.record r) ∧
    r.kind = .frame ∧ r.frame = some [h0, h1, 0x00#8, 0x94#8, h4, fq0, fq1, fq2, fq3, fq4, 0xFD#8] ∧ r.flen = some 11 ∧
    r.overlong = some false ∧ r.accepted = some true ∧ r.digits = some (fq4 ++ fq3 ++ fq2 ++ fq1 ++ fq0) ∧
    StageResults s.bndLo s.bndHi (fq4 ++ fq3 ++ fq2 ++ fq1 ++ fq0) r

/-- A completed frame of the class OTHER, of any length (R112): rejected, with no digits, frequency, band or code, and no
error but FrameOverlong for an overlong one. -/
def Obligations.OtherFramesAreRejected : Prop :=
  ∀ (s : State) (f : Frame), (Instr.other f).wf = true → ∃ t, exec (.other f) s = .next t ∧ SameMachine s t ∧
    Shows t (.record (rejection f))

/-- BCDDEC on every five bytes (R120, R122, R123): the digit word always; with ten decimal digits the exact frequency,
byte k of the field weighted by 100^k; otherwise no frequency and MalformedBCDDigits. -/
def Obligations.BcddecDecodesPackedDigits : Prop :=
  ∀ (s : State) (b0 b1 b2 b3 b4 : Byte), ∃ t fr e, exec (.bcddec b0 b1 b2 b3 b4) s = .next t ∧ SameMachine s t ∧
    Shows t (.decoded (b4 ++ b3 ++ b2 ++ b1 ++ b0) fr e) ∧
    ((∀ b ∈ [b0, b1, b2, b3, b4], b.toNat / 16 ≤ 9 ∧ b.toNat % 16 ≤ 9) → e = .noError ∧ ∃ q, fr = some q ∧
      q.toNat = (10 * (b0.toNat / 16) + b0.toNat % 16) + (10 * (b1.toNat / 16) + b1.toNat % 16) * 100
        + (10 * (b2.toNat / 16) + b2.toNat % 16) * 10000 + (10 * (b3.toNat / 16) + b3.toNat % 16) * 1000000
        + (10 * (b4.toNat / 16) + b4.toNat % 16) * 100000000) ∧
    ((∃ b ∈ [b0, b1, b2, b3, b4], 9 < b.toNat / 16 ∨ 9 < b.toNat % 16) → fr = none ∧ e = .malformedBcdDigits)

/-- R124: every integer 0 to 9,999,999,999 is the frequency of exactly one digit word, and no other frequency decodes. -/
def Obligations.BcdFieldsAndFrequenciesAreOneToOne : Prop :=
  (∀ n : Nat, n ≤ 9999999999 → ∃! d : Digits, ∃ q, bcdFrequency d = some q ∧ q.toNat = n) ∧
  ∀ (d : Digits) (q : Freq), bcdFrequency d = some q → q.toNat ≤ 9999999999

/-- R125: the document's worked example. -/
def Obligations.BcddecWorkedExample : Prop :=
  ∀ s : State, ∃ t, exec (.bcddec 0x00#8 0x00#8 0x14#8 0x35#8 0x21#8) s = .next t ∧
    Shows t (.decoded 0x2135140000#40 (some 2135140000#34) .noError)

/-- BANDMAP on every frequency and every setting of the boundaries (R135, R136, R137): the band of the first row that
contains the frequency, or none with OutOfBand when no row does. -/
def Obligations.BandmapTakesTheFirstRow : Prop :=
  ∀ (s : State) (f : Freq), ∃ t b e, exec (.bandmap f) s = .next t ∧ SameMachine s t ∧ Shows t (.band b e) ∧
    ((∀ r, ¬ InRow s.bndLo s.bndHi r f) → b = none ∧ e = .outOfBand) ∧
    (∀ r, FirstRow s.bndLo s.bndHi r f →
      b = [160#10, 80#10, 60#10, 40#10, 30#10, 20#10, 17#10, 15#10, 12#10, 10#10, 6#10][r.val]? ∧ e = .noError)

/-- One range row on every frequency (R136): the row's band when the row contains the frequency, nothing otherwise. -/
def Obligations.RangeRowsTestOneRange : Prop :=
  ∀ p ∈ ([(.bandmap160, 0, 160#10), (.bandmap80, 1, 80#10), (.bandmap60, 2, 60#10), (.bandmap40, 3, 40#10),
      (.bandmap30, 4, 30#10), (.bandmap20, 5, 20#10), (.bandmap17, 6, 17#10), (.bandmap15, 7, 15#10),
      (.bandmap12, 8, 12#10), (.bandmap10, 9, 10#10), (.bandmap6, 10, 6#10)] : List ((Freq → Instr) × Row × Band)),
    ∀ (s : State) (f : Freq), ∃ t b, exec (p.1 f) s = .next t ∧ SameMachine s t ∧ Shows t (.row b) ∧
      (InRow s.bndLo s.bndHi p.2.1 f → b = some p.2.2) ∧ (¬ InRow s.bndLo s.bndHi p.2.1 f → b = none)

/-- R139: the reset ranges are disjoint and in ascending order, no frequency is in two of them, and every frequency of a
gap is out of band. -/
def Obligations.ResetRangesAreDisjoint : Prop :=
  (∀ r : Row, (bound State.reset.bndLo r).toNat ≤ (bound State.reset.bndHi r).toNat) ∧
  (∀ q r : Row, q < r → (bound State.reset.bndHi q).toNat < (bound State.reset.bndLo r).toNat) ∧
  (∀ (f : Freq) (q r : Row), InRow State.reset.bndLo State.reset.bndHi q f →
    InRow State.reset.bndLo State.reset.bndHi r f → q = r) ∧
  (∀ f : Freq, (∃ g ∈ [(0, 1809999), (2000001, 3499999), (3800001, 5249999), (5450001, 6999999), (7200001, 10099999),
      (10150001, 13999999), (14350001, 18067999), (18168001, 20999999), (21450001, 24889999), (24990001, 27999999),
      (29700001, 49999999), (52000001, 9999999999)], g.1 ≤ f.toNat ∧ f.toNat ≤ g.2) →
    bandMap State.reset.bndLo State.reset.bndHi f = none)

/-- R140: the document's examples, with the reset boundaries. -/
def Obligations.BandmapDocumentExamples : Prop :=
  bandMap State.reset.bndLo State.reset.bndHi 14200000#34 = some 20#10 ∧
  bandMap State.reset.bndLo State.reset.bndHi 14350000#34 = some 20#10 ∧
  bandMap State.reset.bndLo State.reset.bndHi 14350001#34 = none ∧
  bandMap State.reset.bndLo State.reset.bndHi 1809999#34 = none ∧
  bandMap State.reset.bndLo State.reset.bndHi 2000000#34 = some 160#10

/-- BANDENC on all 1024 band values (R150, R152), the document's table written out: the code of a band of the table,
otherwise the sentinel paired with UnknownBandCode. -/
def Obligations.BandencLooksUpTheTable : Prop :=
  ∀ (s : State) (b : Band), ∃ t c ok e, exec (.bandenc b) s = .next t ∧ SameMachine s t ∧ Shows t (.code c ok e) ∧
    (∀ p ∈ ([(160#10, ⟨false, false, false, true⟩), (80#10, ⟨false, false, true, false⟩),
        (60#10, ⟨false, false, false, false⟩), (40#10, ⟨false, false, true, true⟩), (30#10, ⟨false, true, false, false⟩),
        (20#10, ⟨false, true, false, true⟩), (17#10, ⟨false, true, true, false⟩), (15#10, ⟨false, true, true, true⟩),
        (12#10, ⟨true, false, false, false⟩), (10#10, ⟨true, false, false, true⟩),
        (6#10, ⟨true, false, true, false⟩)] : List (Band × Code)),
      b = p.1 → c = p.2 ∧ ok = true ∧ e = .noError) ∧
    (b ∉ [160#10, 80#10, 60#10, 40#10, 30#10, 20#10, 17#10, 15#10, 12#10, 10#10, 6#10] →
      c = ⟨true, true, true, true⟩ ∧ ok = false ∧ e = .unknownBandCode)

/-- The eleven code rows (R150), each code written out. -/
def Obligations.CodeRowsGiveTheDocumentsCodes : Prop :=
  ∀ p ∈ ([(.bandenc160, ⟨false, false, false, true⟩), (.bandenc80, ⟨false, false, true, false⟩),
      (.bandenc60, ⟨false, false, false, false⟩), (.bandenc40, ⟨false, false, true, true⟩),
      (.bandenc30, ⟨false, true, false, false⟩), (.bandenc20, ⟨false, true, false, true⟩),
      (.bandenc17, ⟨false, true, true, false⟩), (.bandenc15, ⟨false, true, true, true⟩),
      (.bandenc12, ⟨true, false, false, false⟩), (.bandenc10, ⟨true, false, false, true⟩),
      (.bandenc6, ⟨true, false, true, false⟩)] : List (Instr × Code)),
    ∀ s : State, ∃ t, exec p.1 s = .next t ∧ SameMachine s t ∧ Shows t (.code p.2 true .noError)

/-- The default code row (R152): every band value outside the eleven gets the sentinel paired with the error. -/
def Obligations.UnknownBandsGetTheSentinel : Prop :=
  ∀ (s : State) (b : Band),
    b ∉ [160#10, 80#10, 60#10, 40#10, 30#10, 20#10, 17#10, 15#10, 12#10, 10#10, 6#10] →
    ∃ t, exec (.bandencUnknown b) s = .next t ∧ SameMachine s t ∧
      Shows t (.code ⟨true, true, true, true⟩ false .unknownBandCode)

/-- R151: the eleven codes are pairwise different, none is the sentinel, they are not in the order of the bands, and no
band value gives a code 11 to 14. -/
def Obligations.BandCodesAreOneToOne : Prop :=
  (∀ b b' c, (b, c) ∈ Config.bandCodes → (b', c) ∈ Config.bandCodes → b = b') ∧
  (∀ b c, (b, c) ∈ Config.bandCodes → c ≠ ⟨true, true, true, true⟩) ∧
  (60#10, (⟨false, false, false, false⟩ : Code)) ∈ Config.bandCodes ∧
  (160#10, (⟨false, false, false, true⟩ : Code)) ∈ Config.bandCodes ∧
  (80#10, (⟨false, false, true, false⟩ : Code)) ∈ Config.bandCodes ∧
  (∀ b : Band, packCode (bandEncode b).1 ≠ 0b1011#4 ∧ packCode (bandEncode b).1 ≠ 0b1100#4 ∧
    packCode (bandEncode b).1 ≠ 0b1101#4 ∧ packCode (bandEncode b).1 ≠ 0b1110#4)

/-- PIPE on every completed frame (R161): the frame's own fields; a frame that FILTER does not accept is rejected; an
accepted one carries its reversed frequency bytes and the results of the later stages in order. -/
def Obligations.PipeBuildsTheRecordInStageOrder : Prop :=
  ∀ (s : State) (f : Frame), f.wf = true → ∃ t r, exec (.pipe f) s = .next t ∧ SameMachine s t ∧ Shows t (.record r) ∧
    (f.isFreqMsg = false → r = rejection f) ∧
    (f.isFreqMsg = true → ∃ b5 b6 b7 b8 b9, f.bytes[5]? = some b5 ∧ f.bytes[6]? = some b6 ∧ f.bytes[7]? = some b7 ∧
      f.bytes[8]? = some b8 ∧ f.bytes[9]? = some b9 ∧ r.kind = .frame ∧ r.frame = some f.bytes ∧ r.flen = some 11 ∧
      r.overlong = some false ∧ r.accepted = some true ∧ r.digits = some (b9 ++ b8 ++ b7 ++ b6 ++ b5) ∧
      StageResults s.bndLo s.bndHi (b9 ++ b8 ++ b7 ++ b6 ++ b5) r)

/-- R153: for every setting of the boundaries BANDMAP gives only bands that BANDENC knows, so PIPE never reports
UnknownBandCode; yet BANDENC has that path. -/
def Obligations.UnknownBandCodeIsUnreachableThroughPipe : Prop :=
  (∀ (los his : Vector Freq 11) (f : Frame), (pipe los his f).err ≠ .unknownBandCode) ∧
  (∀ (los his : Vector Freq 11) (f : Freq) (b : Band), bandMap los his f = some b → (bandEncode b).2 = true) ∧
  bandEncode 40#10 = (⟨false, false, true, true⟩, true) ∧ bandEncode 999#10 = (⟨true, true, true, true⟩, false)

/-- R166: the document's end-to-end example, for every FRAME_CAP and whatever bytes 0, 1 and 4 of the frame hold: with the
reset boundaries, a TERM that ends a frame encoding 14,074,000 Hz reports band 20 and code (0,1,0,1). -/
def Obligations.EndToEndExampleIsBandTwenty : Prop :=
  ∀ (s : State) (h0 h1 h4 : Byte), s.halt = false → s.len = 10 → 11 ≤ s.frameCap → s.bndLo = State.reset.bndLo →
    s.bndHi = State.reset.bndHi →
    partialFrame s = [h0, h1, 0x00#8, 0x94#8, h4, 0x00#8, 0x40#8, 0x07#8, 0x14#8, 0x00#8] →
    ∃ t, exec .term s = .next t ∧
      Emits t { kind := .frame, frame := some (partialFrame s ++ [0xFD#8]), flen := some 11, overlong := some false,
                accepted := some true, digits := some 0x0014074000#40, freq := some 14074000#34, band := some 20#10,
                code := some ⟨false, true, false, true⟩, err := .noError }

/-- R178, R53: a CFGWR touches neither LEN nor the buffer, and a terminator after it classifies the frame under
construction with the boundary it wrote. -/
def Obligations.CfgwrAppliesToTheFrameUnderConstruction : Prop :=
  ∀ (s : State) (a : CfgAddr) (v : Freq), s.halt = false → s.len < s.frameCap → ∃ u t,
    exec (.cfgwr a v) s = .next u ∧ u.len = s.len ∧ u.buf = s.buf ∧ exec .term u = .next t ∧
    (∀ r : Row, bound u.bndLo r = (if a.toNat = 2 * r.val then v else bound s.bndLo r) ∧
      bound u.bndHi r = (if a.toNat = 2 * r.val + 1 then v else bound s.bndHi r)) ∧
    Emits t (pipe u.bndLo u.bndHi ⟨partialFrame s ++ [0xFD#8], s.len + 1, false⟩)

/-! ## Runs -/

/-- R22, R26: from an empty buffer, after any ACC events with NODATA and CFGWR events among them, LEN is the number of
bytes fed, saturated at FRAME_CAP, the buffer holds the first LEN of them, and nothing has been output. -/
def Obligations.BufferHoldsTheFirstBytesFed : Prop :=
  ∀ (s : State) (is : List Instr) (bs : List Byte), s.wf = true → s.halt = false → s.len = 0 → bytesFed is = some bs →
    ∃ u, run is s = .next ([], u) ∧ u.halt = false ∧ u.len = min bs.length s.frameCap ∧
      partialFrame u = bs.take s.frameCap

/-- R97: the framing property. Bytes with no terminator, then a terminator, with NODATA and CFGWR events anywhere among
them, give no record before the terminator and one at it: the sequence whole where it fits, truncated and overlong where
it does not; afterwards the buffer is empty, the block runs and its state is well formed, so that the same holds of the
next sequence. -/
def Obligations.FedSequenceIsReportedAsOneFrame : Prop :=
  ∀ (s : State) (is : List Instr) (bs : List Byte), s.wf = true → s.halt = false → s.len = 0 → bytesFed is = some bs →
    ∃ u t r, run is s = .next ([], u) ∧ exec .term u = .next t ∧ Emits t r ∧ t.len = 0 ∧ t.halt = false ∧
      t.wf = true ∧
      (bs.length + 1 ≤ s.frameCap → r.frame = some (bs ++ [0xFD#8]) ∧ r.flen = some (bs.length + 1) ∧
        r.overlong = some false) ∧
      (s.frameCap < bs.length + 1 → r.frame = some (bs.take s.frameCap) ∧ r.flen = some (s.frameCap + 1) ∧
        r.overlong = some true)

/-- R168: deleting the NODATA events of a run changes neither its records nor the machine it ends in. -/
def Obligations.NodataEventsCanBeDeleted : Prop :=
  ∀ (is : List Instr) (s : State), ∃ rs t u, run is s = .next (rs, t) ∧
    run (is.filter fun i => i != .nodata) s = .next (rs, u) ∧ SameMachine t u

/-- R167, R21: two start states that agree on HALT, LEN, the bytes below LEN, the boundaries and FRAME_CAP give the same
records for the same operations and agree at the end: what the buffer holds from LEN up is never seen. -/
def Obligations.RecordsDoNotDependOnOldBufferBytes : Prop :=
  ∀ (is : List Instr) (s t : State), s.buf.wf = true → t.buf.wf = true → Agree s t →
    ∃ rs u v, run is s = .next (rs, u) ∧ run is t = .next (rs, v) ∧ Agree u v

/-! ## Outputs at signal level -/

/-- R190: the numeric codes of the error kinds; 2 and 7 are never driven. -/
def Obligations.ErrorKindsHaveTheTablesCodes : Prop :=
  errCode .noError = 0#3 ∧ errCode .streamReadError = 1#3 ∧ errCode .malformedBcdDigits = 3#3 ∧
  errCode .outOfBand = 4#3 ∧ errCode .unknownBandCode = 5#3 ∧ errCode .frameOverlong = 6#3 ∧
  ∀ e, errCode e ≠ 2#3 ∧ errCode e ≠ 7#3

/-- R163: the done bits of every operation: `out_frame_done` exactly in a TERM step and `out_stream_error` exactly in an
RDERR step taken with HALT = 0. The last clause, that the level `halted` shows HALT after the step, is the model's choice
(log entry 21). -/
def Obligations.DoneSignalsFollowTermAndRderr : Prop :=
  ∀ (i : Instr) (s t : State), exec i s = .next t →
    ((signals t).outFrameDone = true ↔ i = .term ∧ s.halt = false) ∧
    ((signals t).outStreamError = true ↔ i = .rderr ∧ s.halt = false) ∧ (signals t).halted = t.halt

/-- R163, R152, R223: a record with UnknownBandCode drives 0b1111 on `out_code` with `out_code_valid` = 0. -/
def Obligations.SentinelIsDrivenWithoutValid : Prop :=
  ∀ s t : State, ∀ r, s.out = some r → r.err = .unknownBandCode → r.code = none → t.out = none →
    (signals s).outCode = some 0b1111#4 ∧ (signals s).outCodeValid = some false ∧ (signals t).outCode = none

/-! ## Selecting the operation -/

/-- R11, R46 and the model's form of the input (log entry 1): when the oldest presented word decodes to an instruction,
the step is that instruction's meaning in the state whose input has what is left of the word in its place. That what
decodes is well formed is a statement of its own below. -/
def Obligations.StepRunsTheDecodedInstruction : Prop :=
  ∀ (s : State) (w : InputWord) (rest : List InputWord) (i : Instr), s.input = w :: rest → decode w = .ok i →
    step s = exec i (setInput (restOfWord w ++ rest) s)

/-- The model's choice (log entry 1): a step with nothing presented is NODATA. -/
def Obligations.StepWithNothingPresentedIsNodata : Prop :=
  ∀ s : State, s.input = [] → ∃ t, step s = .next t ∧ SameMachine s t ∧ Silent t

/-- R11, R61: the block is total on its input. While everything presented is a sampling instant of its two ports, a step
answers a next state, and what is still to be taken are sampling instants again. -/
def Obligations.StepIsTotalOnPortInput : Prop :=
  ∀ s : State, (∀ w ∈ s.input, ∃ e g, w = .instant e g) →
    ∃ t, step s = .next t ∧ ∀ w ∈ t.input, ∃ e g, w = .instant e g

/-- R61: the event a stream vector selects when no configuration write comes with it, by its bits. -/
def Obligations.StreamVectorSelectsTheEvent : Prop :=
  ∀ (e : StreamWord) (g : ConfigWord), g.getLsbD 39 = false →
    (e.getLsbD 10 = true → decode (.instant e g) = .ok .rst) ∧
    (e.getLsbD 10 = false → e.getLsbD 9 = true → decode (.instant e g) = .ok .rderr) ∧
    (e.getLsbD 10 = false → e.getLsbD 9 = false → e.getLsbD 8 = true → e.extractLsb' 0 8 = 0xFD#8 →
      decode (.instant e g) = .ok .term) ∧
    (e.getLsbD 10 = false → e.getLsbD 9 = false → e.getLsbD 8 = true → e.extractLsb' 0 8 ≠ 0xFD#8 →
      decode (.instant e g) = .ok (.acc (e.extractLsb' 0 8))) ∧
    (e.getLsbD 10 = false → e.getLsbD 9 = false → e.getLsbD 8 = false → decode (.instant e g) = .ok .nodata)

/-- R62: what a sampling instant gives. With `cfg_we` = 1 and `rst` the RST alone, the configuration write discarded;
with `cfg_we` = 1 otherwise first the CFGWR of its address and data, then the stream event alone; with `cfg_we` = 0 no
configuration event. -/
def Obligations.ConfigurationComesBeforeTheStreamEvent : Prop :=
  (∀ (e : StreamWord) (a : CfgAddr) (v : Freq),
    (e.getLsbD 10 = true → decode (.instant e (1#1 ++ a ++ v)) = .ok .rst ∧
      restOfWord (.instant e (1#1 ++ a ++ v)) = []) ∧
    (e.getLsbD 10 = false → decode (.instant e (1#1 ++ a ++ v)) = .ok (.cfgwr a v) ∧
      ∃ g, restOfWord (.instant e (1#1 ++ a ++ v)) = [.instant e g] ∧ g.getLsbD 39 = false)) ∧
  ∀ (e : StreamWord) (g : ConfigWord), g.getLsbD 39 = false → restOfWord (.instant e g) = [] ∧
    ∀ a v, decode (.instant e g) ≠ .ok (.cfgwr a v)

/-- Decode and encode agree on every well-formed instruction, with every operand at every value. -/
def Obligations.DecodeOfEncodeIsTheInstruction : Prop :=
  ∀ i : Instr, i.wf = true → decode (encode i) = .ok i

/-- Whatever decodes is well formed, and every sampling instant of the two ports decodes (R11, R61: the block is total on
its input). -/
def Obligations.DecodedInstructionsAreWellFormed : Prop :=
  (∀ (w : InputWord) (i : Instr), decode w = .ok i → i.wf = true) ∧
  ∀ (e : StreamWord) (g : ConfigWord), ∃ i, decode (.instant e g) = .ok i

/-- Words written out from the encodings of R61, R62 and R63 decode to the operations they stand for. -/
def Obligations.WrittenOutWordsDecode : Prop :=
  decode (.instant 0b10000000000#11 0#40) = .ok .rst ∧
  decode (.instant 0b01111111101#11 0#40) = .ok .rderr ∧
  decode (.instant 0b00111111101#11 0#40) = .ok .term ∧
  decode (.instant 0b00111111100#11 0#40) = .ok (.acc 0xFC#8) ∧
  decode (.instant 0b00011111101#11 0#40) = .ok .nodata ∧
  decode (.instant 0#11 0xAC00DA3360#40) = .ok (.cfgwr 11#5 14300000#34) ∧
  decode (.frame false [0x11#8, 0x22#8, 0x00#8, 0x94#8, 0x33#8, 0x00#8, 0x40#8, 0x07#8, 0x14#8, 0x00#8, 0xFD#8])
    = .ok (.freqmsg 0x11#8 0x22#8 [0x33#8] 0x00#8 0x40#8 0x07#8 0x14#8 0x00#8) ∧
  decode (.frame false [0xFD#8]) = .ok (.other ⟨[0xFD#8], 1, false⟩)
end

