-- ==== Sys2Proof/Laws/Stages.lean ====
section
/-!
SUPPORT. For each stage, once, everything it can answer.
-/

namespace Sys2Proof.Machine

/-- FILTER accepts exactly the conjunction of R110. -/
theorem filterFrame_iff (f : Frame) :
    filterFrame f = true ↔ f.overlong = false ∧ f.flen = Config.msgLen ∧ frameByte f Config.id2Off = Config.id2Val
      ∧ frameByte f Config.id3Off = Config.id3Val := by
  unfold filterFrame
  split_ifs <;> simp_all

/-- BCDDEC answers a frequency exactly when every nibble is a digit. -/
theorem bcdFrequency_cases (d : Digits) :
    (digitsValid d = true ∧ bcdFrequency d = some (BitVec.ofNat 34 (decimalValue (digitList d))) ∧
      bcdError d = .noError) ∨
    (digitsValid d = false ∧ bcdFrequency d = none ∧ bcdError d = .malformedBcdDigits) := by
  cases h : digitsValid d <;> simp [bcdFrequency, bcdError, h]

/-- BANDMAP answers the band of the first row that contains the frequency, or none when no row does. -/
theorem bandMap_cases (los his : Vector Freq 11) (f : Freq) :
    (∃ r, rowContains los his f r = true ∧ (∀ q, q < r → rowContains los his f q = false) ∧
      bandMap los his f = some (rowBand r)) ∨
    ((∀ r, rowContains los his f r = false) ∧ bandMap los his f = none) := by
  unfold bandMap
  cases h : (List.finRange 11).find? (rowContains los his f) with
  | none =>
    refine .inr ⟨fun r => ?_, rfl⟩
    have := List.find?_eq_none.mp h r (List.mem_finRange r)
    simpa using this
  | some r =>
    refine .inl ⟨r, List.find?_some h, fun q hq => ?_, rfl⟩
    obtain ⟨_, as, bs, hl, hno⟩ := List.find?_eq_some_iff_append.mp h
    have hs : (as ++ r :: bs).Pairwise (· < ·) := by
      rw [← hl]; exact List.pairwise_lt_finRange 11
    have hmem : q ∈ as ++ r :: bs := by rw [← hl]; exact List.mem_finRange q
    rcases List.mem_append.mp hmem with hqa | hqb
    · simpa using hno q hqa
    · rcases List.mem_cons.mp hqb with rfl | hqb
      · exact absurd hq (lt_irrefl _)
      · have := (List.pairwise_cons.mp (List.pairwise_append.mp hs).2.1).1 q hqb
        exact absurd hq (lt_asymm this)

/-- BANDENC answers the table's code for a band of the table, and the sentinel with `false` for every other value. -/
theorem bandEncode_cases (b : Band) :
    (∃ c, lookupCode b = some c ∧ bandEncode b = (c, true)) ∨
    (lookupCode b = none ∧ bandEncode b = (Config.sentinel, false)) := by
  unfold bandEncode
  cases lookupCode b with
  | none => exact .inr ⟨rfl, rfl⟩
  | some c => exact .inl ⟨c, rfl, rfl⟩

/-- PIPE answers one of five records: rejected, malformed digits, out of band, no code for the band, full result. -/
theorem pipe_cases (los his : Vector Freq 11) (f : Frame) :
    (filterFrame f = false ∧ pipe los his f = frameRecord f) ∨
    (filterFrame f = true ∧ digitsValid (frequencyField f) = false ∧
      pipe los his f = { frameRecord f with
        accepted := some true, digits := some (frequencyField f), err := .malformedBcdDigits }) ∨
    (∃ q, filterFrame f = true ∧ bcdFrequency (frequencyField f) = some q ∧ bandMap los his q = none ∧
      pipe los his f = { frameRecord f with
        accepted := some true, digits := some (frequencyField f), freq := some q, err := .outOfBand }) ∨
    (∃ q b, filterFrame f = true ∧ bcdFrequency (frequencyField f) = some q ∧ bandMap los his q = some b ∧
      (bandEncode b).2 = false ∧
      pipe los his f = { frameRecord f with
        accepted := some true, digits := some (frequencyField f), freq := some q, band := some b,
        err := .unknownBandCode }) ∨
    (∃ q b, filterFrame f = true ∧ bcdFrequency (frequencyField f) = some q ∧ bandMap los his q = some b ∧
      (bandEncode b).2 = true ∧
      pipe los his f = { frameRecord f with
        accepted := some true, digits := some (frequencyField f), freq := some q, band := some b,
        code := some (bandEncode b).1 }) := by
  unfold pipe pipeDecode pipeMap pipeEncode
  cases hf : filterFrame f with
  | false => exact .inl ⟨rfl, rfl⟩
  | true =>
    refine .inr ?_
    rcases bcdFrequency_cases (frequencyField f) with ⟨hv, hq, -⟩ | ⟨hv, hq, -⟩
    · refine .inr ?_
      rw [hq]
      cases hb : bandMap los his (BitVec.ofNat 34 (decimalValue (digitList (frequencyField f)))) with
      | none => exact .inl ⟨_, rfl, rfl, hb, by simp [hb]⟩
      | some b =>
        cases hc : (bandEncode b).2 with
        | false => exact .inr (.inl ⟨_, b, rfl, rfl, hb, hc, by simp [hb, hc]⟩)
        | true => exact .inr (.inr ⟨_, b, rfl, rfl, hb, hc, by simp [hb, hc]⟩)
    · exact .inl ⟨rfl, hv, by simp [hq]⟩

end Sys2Proof.Machine
end

