-- ==== Sys2Proof/Laws/Digits.lean ====
section
/-!
SUPPORT. Digit words as numbers: what a valid one is, the value of its digits, and the words that bytes are packed into.
-/

namespace Sys2Proof.Machine

theorem digitsValid_iff (d : Digits) : digitsValid d = true ↔ ∀ j, j < 10 → (digit d j).toNat ≤ 9 := by
  simp [digitsValid, digitList, Config.fqDigits]

theorem range_ten : List.range 10 = [0, 1, 2, 3, 4, 5, 6, 7, 8, 9] := rfl

/-- The value that BCDDEC accumulates is the weighted sum of the digits. -/
theorem decimalValue_digitList (d : Digits) : decimalValue (digitList d) = digitSum d := by
  unfold decimalValue digitList digitSum
  rw [show Config.fqDigits = 10 from rfl, range_ten]
  simp only [List.map_cons, List.map_nil, List.foldl_cons, List.foldl_nil]
  omega

theorem digitSum_le {d : Digits} (h : ∀ j, j < 10 → (digit d j).toNat ≤ 9) : digitSum d ≤ 9999999999 := by
  have h0 := h 0 (by omega); have h1 := h 1 (by omega); have h2 := h 2 (by omega); have h3 := h 3 (by omega)
  have h4 := h 4 (by omega); have h5 := h 5 (by omega); have h6 := h 6 (by omega); have h7 := h 7 (by omega)
  have h8 := h 8 (by omega); have h9 := h 9 (by omega)
  unfold digitSum; omega

/-- A byte appended to a word, as a number. -/
theorem toNat_append_byte {w : Nat} (x : BitVec w) (b : Byte) : (x ++ b).toNat = x.toNat * 256 + b.toNat := by
  rw [BitVec.toNat_append, ← Nat.shiftLeft_add_eq_or_of_lt b.isLt, Nat.shiftLeft_eq]

/-- The operand word of BCDDEC, as a number. -/
theorem packOperand_toNat (b0 b1 b2 b3 b4 : Byte) :
    (packOperand b0 b1 b2 b3 b4).toNat
      = (((b4.toNat * 256 + b3.toNat) * 256 + b2.toNat) * 256 + b1.toNat) * 256 + b0.toNat := by
  unfold packOperand
  rw [toNat_append_byte, toNat_append_byte, toNat_append_byte, toNat_append_byte]

/-- A configuration vector with `cfg_we` = 1, as a number. -/
theorem configWord_toNat (a : CfgAddr) (v : Freq) :
    (1#1 ++ a ++ v).toNat = 2 ^ 39 + a.toNat * 2 ^ 34 + v.toNat := by
  have ha := a.isLt
  have hv := v.isLt
  rw [BitVec.toNat_append, BitVec.toNat_append, ← Nat.shiftLeft_add_eq_or_of_lt hv, ← Nat.shiftLeft_add_eq_or_of_lt ha]
  simp only [Nat.shiftLeft_eq]; simp; omega

end Sys2Proof.Machine
end

