-- ==== Sys2Proof/Laws/Memory.lean ====
section
/-!
SUPPORT. The laws of the frame buffer as a memory: what a read after a write gives, and that a write keeps the canonical
form and the bound on the indices.
-/

namespace Sys2Proof.Machine

@[simp] theorem Memory.read_nil (i : Nat) : Memory.read [] i = unwrittenByte := rfl

theorem Memory.read_cons (k : Nat) (v : Byte) (m : Memory) (i : Nat) :
    Memory.read ((k, v) :: m) i = if k = i then v else Memory.read m i := rfl

theorem Memory.write_nil (i : Nat) (b : Byte) :
    Memory.write [] i b = if b = unwrittenByte then [] else [(i, b)] := rfl

theorem Memory.write_cons (k : Nat) (v : Byte) (m : Memory) (i : Nat) (b : Byte) :
    Memory.write ((k, v) :: m) i b =
      if i < k then (if b = unwrittenByte then (k, v) :: m else (i, b) :: (k, v) :: m)
      else if i = k then (if b = unwrittenByte then m else (i, b) :: m)
      else (k, v) :: Memory.write m i b := rfl

theorem Memory.wfFrom_cons (lo k : Nat) (v : Byte) (m : Memory) :
    Memory.wfFrom lo ((k, v) :: m) = true ↔ (lo ≤ k ∧ v ≠ unwrittenByte) ∧ Memory.wfFrom (k + 1) m = true := by
  rw [show Memory.wfFrom lo ((k, v) :: m) = (decide (lo ≤ k) && v != unwrittenByte && Memory.wfFrom (k + 1) m) from rfl]
  simp

theorem Memory.wfFrom_mono {lo lo' : Nat} (h : lo' ≤ lo) :
    ∀ {m : Memory}, Memory.wfFrom lo m = true → Memory.wfFrom lo' m = true
  | [], _ => rfl
  | (k, v) :: m, hm => by
    simp only [Memory.wfFrom_cons] at hm ⊢
    exact ⟨⟨h.trans hm.1.1, hm.1.2⟩, hm.2⟩

/-- An index below every listed one reads as unwritten. -/
theorem Memory.read_below : ∀ {lo : Nat} {m : Memory} {i : Nat}, Memory.wfFrom lo m = true → i < lo →
    Memory.read m i = unwrittenByte
  | _, [], _, _, _ => rfl
  | lo, (k, v) :: m, i, hm, hi => by
    simp only [Memory.wfFrom_cons] at hm
    rw [Memory.read_cons, if_neg (by omega)]
    exact Memory.read_below hm.2 (by omega)

/-- A read of an index other than the written one gives what it gave before. -/
theorem Memory.read_write_other {i j : Nat} (b : Byte) (h : j ≠ i) :
    ∀ m : Memory, Memory.read (Memory.write m i b) j = Memory.read m j
  | [] => by
    rw [Memory.write_nil]
    split_ifs
    · rfl
    · simp [Memory.read_cons, Ne.symm h]
  | (k, v) :: m => by
    rw [Memory.write_cons]
    split_ifs with h1 h2 h3 h4
    · rfl
    · simp [Memory.read_cons, Ne.symm h]
    · subst h3; simp [Memory.read_cons, Ne.symm h]
    · subst h3; simp [Memory.read_cons, Ne.symm h]
    · simp [Memory.read_cons, Memory.read_write_other b h m]

/-- A read of the written index of a memory in canonical form gives the byte written. -/
theorem Memory.read_write_same (i : Nat) (b : Byte) :
    ∀ {lo : Nat} {m : Memory}, Memory.wfFrom lo m = true → Memory.read (Memory.write m i b) i = b
  | _, [], _ => by
    rw [Memory.write_nil]
    split_ifs with h
    · exact h.symm
    · simp [Memory.read_cons]
  | lo, (k, v) :: m, hm => by
    simp only [Memory.wfFrom_cons] at hm
    rw [Memory.write_cons]
    split_ifs with h1 h2 h3 h4
    · rw [Memory.read_cons, if_neg (by omega), Memory.read_below hm.2 (by omega), h2]
    · simp [Memory.read_cons]
    · rw [Memory.read_below hm.2 (by omega), h4]
    · simp [Memory.read_cons]
    · rw [Memory.read_cons, if_neg (by omega)]
      exact Memory.read_write_same i b hm.2

theorem Memory.wfFrom_write (i : Nat) (b : Byte) :
    ∀ {lo : Nat} {m : Memory}, lo ≤ i → Memory.wfFrom lo m = true → Memory.wfFrom lo (Memory.write m i b) = true
  | lo, [], hi, _ => by
    rw [Memory.write_nil]
    split_ifs with h
    · rfl
    · simp [Memory.wfFrom, hi, h]
  | lo, (k, v) :: m, hi, hm => by
    simp only [Memory.wfFrom_cons] at hm
    rw [Memory.write_cons]
    split_ifs with h1 h2 h3 h4
    · simp only [Memory.wfFrom_cons]; exact hm
    · simp only [Memory.wfFrom_cons]
      exact ⟨⟨hi, by simp [h2]⟩, ⟨⟨h1, hm.1.2⟩, hm.2⟩⟩
    · exact Memory.wfFrom_mono (by omega) hm.2
    · simp only [Memory.wfFrom_cons]
      exact ⟨⟨hi, by simp [h4]⟩, by rw [h3]; exact hm.2⟩
    · simp only [Memory.wfFrom_cons]
      exact ⟨hm.1, Memory.wfFrom_write i b (by omega) hm.2⟩

/-- Every memory operation keeps the canonical form. -/
theorem Memory.wf_write (i : Nat) (b : Byte) {m : Memory} (h : Memory.wf m = true) :
    Memory.wf (Memory.write m i b) = true := Memory.wfFrom_write i b (Nat.zero_le _) h

theorem Memory.below_write {cap i : Nat} (b : Byte) (hi : i < cap) :
    ∀ {m : Memory}, Memory.below cap m = true → Memory.below cap (Memory.write m i b) = true
  | [], _ => by
    rw [Memory.write_nil]
    split_ifs <;> simp [Memory.below, hi]
  | (k, v) :: m, hm => by
    have hm' : k < cap ∧ Memory.below cap m = true := by simpa [Memory.below] using hm
    rw [Memory.write_cons]
    split_ifs with h1 h2 h3 h4
    · exact hm
    · simpa [Memory.below, hi] using hm
    · exact hm'.2
    · simpa [Memory.below, hi] using hm'.2
    · have ih := Memory.below_write b hi hm'.2
      simp only [Memory.below, List.all_cons, Bool.and_eq_true, decide_eq_true_eq] at ih ⊢
      exact ⟨hm'.1, ih⟩

/-- The memory right after reset has the canonical form. -/
theorem reset_memory_wf : Memory.wf State.reset.buf = true := rfl

end Sys2Proof.Machine
end

