-- ==== Sys2Proof/Laws/State.lean ====
section
/-!
SUPPORT. One lemma for each field of the reset state, and for each field after each named update (`Machine/Ops.lean`).
No proof needs to unfold a record update. LEN is the one field whose update says something: what is written is read back
where it is at most FRAME_CAP, because LEN_W bits hold it.
-/

namespace Sys2Proof.Machine

@[simp] theorem reset_halt : State.reset.halt = false := rfl

@[simp] theorem reset_len : State.reset.len = 0 := rfl

@[simp] theorem reset_buf : State.reset.buf = [] := rfl

@[simp] theorem reset_bndLo : State.reset.bndLo = Config.resetLow := rfl

@[simp] theorem reset_bndHi : State.reset.bndHi = Config.resetHigh := rfl

@[simp] theorem reset_frameCap : State.reset.frameCap = Config.defaultFrameCap := rfl

@[simp] theorem reset_input : State.reset.input = [] := rfl

@[simp] theorem reset_out : State.reset.out = none := rfl

@[simp] theorem reset_stage : State.reset.stage = none := rfl

@[simp] theorem quiet_halt (s : State) : (quiet s).halt = s.halt := rfl

@[simp] theorem quiet_len (s : State) : (quiet s).len = s.len := rfl

@[simp] theorem quiet_buf (s : State) : (quiet s).buf = s.buf := rfl

@[simp] theorem quiet_bndLo (s : State) : (quiet s).bndLo = s.bndLo := rfl

@[simp] theorem quiet_bndHi (s : State) : (quiet s).bndHi = s.bndHi := rfl

@[simp] theorem quiet_frameCap (s : State) : (quiet s).frameCap = s.frameCap := rfl

@[simp] theorem quiet_input (s : State) : (quiet s).input = s.input := rfl

@[simp] theorem quiet_out (s : State) : (quiet s).out = none := rfl

@[simp] theorem quiet_stage (s : State) : (quiet s).stage = none := rfl

@[simp] theorem emit_halt (r : Record) (s : State) : (emit r s).halt = s.halt := rfl

@[simp] theorem emit_len (r : Record) (s : State) : (emit r s).len = s.len := rfl

@[simp] theorem emit_buf (r : Record) (s : State) : (emit r s).buf = s.buf := rfl

@[simp] theorem emit_bndLo (r : Record) (s : State) : (emit r s).bndLo = s.bndLo := rfl

@[simp] theorem emit_bndHi (r : Record) (s : State) : (emit r s).bndHi = s.bndHi := rfl

@[simp] theorem emit_frameCap (r : Record) (s : State) : (emit r s).frameCap = s.frameCap := rfl

@[simp] theorem emit_input (r : Record) (s : State) : (emit r s).input = s.input := rfl

@[simp] theorem emit_out (r : Record) (s : State) : (emit r s).out = some r := rfl

@[simp] theorem emit_stage (r : Record) (s : State) : (emit r s).stage = none := rfl

@[simp] theorem showStage_halt (v : StageValue) (s : State) : (showStage v s).halt = s.halt := rfl

@[simp] theorem showStage_len (v : StageValue) (s : State) : (showStage v s).len = s.len := rfl

@[simp] theorem showStage_buf (v : StageValue) (s : State) : (showStage v s).buf = s.buf := rfl

@[simp] theorem showStage_bndLo (v : StageValue) (s : State) : (showStage v s).bndLo = s.bndLo := rfl

@[simp] theorem showStage_bndHi (v : StageValue) (s : State) : (showStage v s).bndHi = s.bndHi := rfl

@[simp] theorem showStage_frameCap (v : StageValue) (s : State) : (showStage v s).frameCap = s.frameCap := rfl

@[simp] theorem showStage_input (v : StageValue) (s : State) : (showStage v s).input = s.input := rfl

@[simp] theorem showStage_out (v : StageValue) (s : State) : (showStage v s).out = none := rfl

@[simp] theorem showStage_stage (v : StageValue) (s : State) : (showStage v s).stage = some v := rfl

@[simp] theorem setHalt_halt (h : Bool) (s : State) : (setHalt h s).halt = h := rfl

@[simp] theorem setHalt_len (h : Bool) (s : State) : (setHalt h s).len = s.len := rfl

@[simp] theorem setHalt_buf (h : Bool) (s : State) : (setHalt h s).buf = s.buf := rfl

@[simp] theorem setHalt_bndLo (h : Bool) (s : State) : (setHalt h s).bndLo = s.bndLo := rfl

@[simp] theorem setHalt_bndHi (h : Bool) (s : State) : (setHalt h s).bndHi = s.bndHi := rfl

@[simp] theorem setHalt_frameCap (h : Bool) (s : State) : (setHalt h s).frameCap = s.frameCap := rfl

@[simp] theorem setHalt_input (h : Bool) (s : State) : (setHalt h s).input = s.input := rfl

@[simp] theorem setHalt_out (h : Bool) (s : State) : (setHalt h s).out = s.out := rfl

@[simp] theorem setHalt_stage (h : Bool) (s : State) : (setHalt h s).stage = s.stage := rfl

@[simp] theorem setBounds_halt (lo hi : Vector Freq 11) (s : State) : (setBounds lo hi s).halt = s.halt := rfl

@[simp] theorem setBounds_len (lo hi : Vector Freq 11) (s : State) : (setBounds lo hi s).len = s.len := rfl

@[simp] theorem setBounds_buf (lo hi : Vector Freq 11) (s : State) : (setBounds lo hi s).buf = s.buf := rfl

@[simp] theorem setBounds_bndLo (lo hi : Vector Freq 11) (s : State) : (setBounds lo hi s).bndLo = lo := rfl

@[simp] theorem setBounds_bndHi (lo hi : Vector Freq 11) (s : State) : (setBounds lo hi s).bndHi = hi := rfl

@[simp] theorem setBounds_frameCap (lo hi : Vector Freq 11) (s : State) : (setBounds lo hi s).frameCap = s.frameCap := rfl

@[simp] theorem setBounds_input (lo hi : Vector Freq 11) (s : State) : (setBounds lo hi s).input = s.input := rfl

@[simp] theorem setBounds_out (lo hi : Vector Freq 11) (s : State) : (setBounds lo hi s).out = s.out := rfl

@[simp] theorem setBounds_stage (lo hi : Vector Freq 11) (s : State) : (setBounds lo hi s).stage = s.stage := rfl

@[simp] theorem setLen_halt (n : Nat) (s : State) : (setLen n s).halt = s.halt := rfl

/-- Every number up to FRAME_CAP fits in LEN_W bits (R8). -/
theorem lt_two_pow_lenWidth {n cap : Nat} (h : n ≤ cap) : n < 2 ^ Config.lenWidth cap :=
  lt_of_le_of_lt h Nat.lt_log2_self

/-- What LEN reads as after it is set to a number up to FRAME_CAP: that number. -/
theorem setLen_len {n : Nat} {s : State} (h : n ≤ s.frameCap) : (setLen n s).len = n :=
  (BitVec.toNat_ofNat ..).trans (Nat.mod_eq_of_lt (lt_two_pow_lenWidth h))

@[simp] theorem setLen_zero_len (s : State) : (setLen 0 s).len = 0 := setLen_len (Nat.zero_le _)

/-- A byte accepted below FRAME_CAP is counted. -/
@[simp] theorem setLen_succ_len {n : Nat} {s : State} (h : n < s.frameCap) : (setLen (n + 1) s).len = n + 1 :=
  setLen_len h

@[simp] theorem setLen_buf (n : Nat) (s : State) : (setLen n s).buf = s.buf := rfl

@[simp] theorem setLen_bndLo (n : Nat) (s : State) : (setLen n s).bndLo = s.bndLo := rfl

@[simp] theorem setLen_bndHi (n : Nat) (s : State) : (setLen n s).bndHi = s.bndHi := rfl

@[simp] theorem setLen_frameCap (n : Nat) (s : State) : (setLen n s).frameCap = s.frameCap := rfl

@[simp] theorem setLen_input (n : Nat) (s : State) : (setLen n s).input = s.input := rfl

@[simp] theorem setLen_out (n : Nat) (s : State) : (setLen n s).out = s.out := rfl

@[simp] theorem setLen_stage (n : Nat) (s : State) : (setLen n s).stage = s.stage := rfl

@[simp] theorem putByte_halt (i : Nat) (b : Byte) (s : State) : (putByte i b s).halt = s.halt := rfl

@[simp] theorem putByte_len (i : Nat) (b : Byte) (s : State) : (putByte i b s).len = s.len := rfl

@[simp] theorem putByte_buf (i : Nat) (b : Byte) (s : State) : (putByte i b s).buf = s.buf.write i b := rfl

@[simp] theorem putByte_bndLo (i : Nat) (b : Byte) (s : State) : (putByte i b s).bndLo = s.bndLo := rfl

@[simp] theorem putByte_bndHi (i : Nat) (b : Byte) (s : State) : (putByte i b s).bndHi = s.bndHi := rfl

@[simp] theorem putByte_frameCap (i : Nat) (b : Byte) (s : State) : (putByte i b s).frameCap = s.frameCap := rfl

@[simp] theorem putByte_input (i : Nat) (b : Byte) (s : State) : (putByte i b s).input = s.input := rfl

@[simp] theorem putByte_out (i : Nat) (b : Byte) (s : State) : (putByte i b s).out = s.out := rfl

@[simp] theorem putByte_stage (i : Nat) (b : Byte) (s : State) : (putByte i b s).stage = s.stage := rfl

@[simp] theorem takeStreamError_halt (s : State) : (takeStreamError s).halt = true := rfl

@[simp] theorem takeStreamError_len (s : State) : (takeStreamError s).len = 0 := setLen_zero_len _

@[simp] theorem takeStreamError_buf (s : State) : (takeStreamError s).buf = s.buf := rfl

@[simp] theorem takeStreamError_bndLo (s : State) : (takeStreamError s).bndLo = s.bndLo := rfl

@[simp] theorem takeStreamError_bndHi (s : State) : (takeStreamError s).bndHi = s.bndHi := rfl

@[simp] theorem takeStreamError_frameCap (s : State) : (takeStreamError s).frameCap = s.frameCap := rfl

@[simp] theorem takeStreamError_input (s : State) : (takeStreamError s).input = s.input := rfl

@[simp] theorem takeStreamError_out (s : State) : (takeStreamError s).out = some streamErrorRecord := rfl

@[simp] theorem takeStreamError_stage (s : State) : (takeStreamError s).stage = none := rfl

@[simp] theorem resetBlock_halt (s : State) : (resetBlock s).halt = false := rfl

@[simp] theorem resetBlock_len (s : State) : (resetBlock s).len = 0 := setLen_zero_len _

@[simp] theorem resetBlock_buf (s : State) : (resetBlock s).buf = s.buf := rfl

@[simp] theorem resetBlock_bndLo (s : State) : (resetBlock s).bndLo = Config.resetLow := rfl

@[simp] theorem resetBlock_bndHi (s : State) : (resetBlock s).bndHi = Config.resetHigh := rfl

@[simp] theorem resetBlock_frameCap (s : State) : (resetBlock s).frameCap = s.frameCap := rfl

@[simp] theorem resetBlock_input (s : State) : (resetBlock s).input = s.input := rfl

@[simp] theorem resetBlock_out (s : State) : (resetBlock s).out = none := rfl

@[simp] theorem resetBlock_stage (s : State) : (resetBlock s).stage = none := rfl

@[simp] theorem setInput_halt (ws : List InputWord) (s : State) : (setInput ws s).halt = s.halt := rfl

@[simp] theorem setInput_len (ws : List InputWord) (s : State) : (setInput ws s).len = s.len := rfl

@[simp] theorem setInput_buf (ws : List InputWord) (s : State) : (setInput ws s).buf = s.buf := rfl

@[simp] theorem setInput_bndLo (ws : List InputWord) (s : State) : (setInput ws s).bndLo = s.bndLo := rfl

@[simp] theorem setInput_bndHi (ws : List InputWord) (s : State) : (setInput ws s).bndHi = s.bndHi := rfl

@[simp] theorem setInput_frameCap (ws : List InputWord) (s : State) : (setInput ws s).frameCap = s.frameCap := rfl

@[simp] theorem setInput_input (ws : List InputWord) (s : State) : (setInput ws s).input = ws := rfl

@[simp] theorem setInput_out (ws : List InputWord) (s : State) : (setInput ws s).out = s.out := rfl

@[simp] theorem setInput_stage (ws : List InputWord) (s : State) : (setInput ws s).stage = s.stage := rfl

@[simp] theorem present_halt (w : InputWord) (s : State) : (present w s).halt = s.halt := rfl

@[simp] theorem present_len (w : InputWord) (s : State) : (present w s).len = s.len := rfl

@[simp] theorem present_buf (w : InputWord) (s : State) : (present w s).buf = s.buf := rfl

@[simp] theorem present_bndLo (w : InputWord) (s : State) : (present w s).bndLo = s.bndLo := rfl

@[simp] theorem present_bndHi (w : InputWord) (s : State) : (present w s).bndHi = s.bndHi := rfl

@[simp] theorem present_frameCap (w : InputWord) (s : State) : (present w s).frameCap = s.frameCap := rfl

@[simp] theorem present_input (w : InputWord) (s : State) : (present w s).input = w :: s.input := rfl

@[simp] theorem present_out (w : InputWord) (s : State) : (present w s).out = s.out := rfl

@[simp] theorem present_stage (w : InputWord) (s : State) : (present w s).stage = s.stage := rfl

/-- A configuration write changes the boundary registers only. -/
theorem writeBoundary_bounds (a : CfgAddr) (v : Freq) (s : State) :
    ∃ lo hi, writeBoundary a v s = setBounds lo hi s := by
  unfold writeBoundary
  split_ifs <;> exact ⟨_, _, rfl⟩

@[simp] theorem writeBoundary_halt (a : CfgAddr) (v : Freq) (s : State) : (writeBoundary a v s).halt = s.halt := by
  obtain ⟨_, _, h⟩ := writeBoundary_bounds a v s; rw [h]; rfl

@[simp] theorem writeBoundary_len (a : CfgAddr) (v : Freq) (s : State) : (writeBoundary a v s).len = s.len := by
  obtain ⟨_, _, h⟩ := writeBoundary_bounds a v s; rw [h]; rfl

@[simp] theorem writeBoundary_buf (a : CfgAddr) (v : Freq) (s : State) : (writeBoundary a v s).buf = s.buf := by
  obtain ⟨_, _, h⟩ := writeBoundary_bounds a v s; rw [h]; rfl

@[simp] theorem writeBoundary_frameCap (a : CfgAddr) (v : Freq) (s : State) : (writeBoundary a v s).frameCap = s.frameCap := by
  obtain ⟨_, _, h⟩ := writeBoundary_bounds a v s; rw [h]; rfl

@[simp] theorem writeBoundary_input (a : CfgAddr) (v : Freq) (s : State) : (writeBoundary a v s).input = s.input := by
  obtain ⟨_, _, h⟩ := writeBoundary_bounds a v s; rw [h]; rfl

@[simp] theorem writeBoundary_out (a : CfgAddr) (v : Freq) (s : State) : (writeBoundary a v s).out = s.out := by
  obtain ⟨_, _, h⟩ := writeBoundary_bounds a v s; rw [h]; rfl

@[simp] theorem writeBoundary_stage (a : CfgAddr) (v : Freq) (s : State) : (writeBoundary a v s).stage = s.stage := by
  obtain ⟨_, _, h⟩ := writeBoundary_bounds a v s; rw [h]; rfl

end Sys2Proof.Machine
end

