-- ==== Sys2Proof/Laws/Ops.lean ====
section
/-!
SUPPORT. For each shared operation, once, everything it can do. Later proofs cite these instead of unfolding.
-/

namespace Sys2Proof.Machine

@[simp] theorem andThen_next {α β : Type} (a : α) (k : α → Host.Outcome β Fault Refusal) :
    andThen (.next a) k = k a := rfl

/-- A chain answers a next state exactly when both of its parts do. -/
theorem andThen_eq_next {α β : Type} {x : Host.Outcome α Fault Refusal} {k : α → Host.Outcome β Fault Refusal} {b : β} :
    andThen x k = .next b ↔ ∃ a, x = .next a ∧ k a = .next b := by
  cases x <;> simp [andThen]

/-- What a write of the buffer does where the index exists. -/
theorem bufWrite_next {i : Nat} {s : State} (b : Byte) (h : i < s.frameCap) : bufWrite i b s = .next (putByte i b s) := by
  simp [bufWrite, h]

/-- What reading the first `n` bytes of the buffer gives where they exist. -/
theorem bufReadPrefix_next {n : Nat} {s : State} (h : n ≤ s.frameCap) :
    bufReadPrefix n s = .next ((List.range n).map s.buf.read) := by
  simp [bufReadPrefix, h]

/-- The gate of the halted state: nothing while halted, the operation itself while running. -/
theorem whenRunning_cases (s : State) (k : Host.Outcome State Fault Refusal) :
    (s.halt = true ∧ whenRunning s k = .next (quiet s)) ∨ (s.halt = false ∧ whenRunning s k = k) := by
  cases h : s.halt <;> simp [whenRunning, h]

theorem whenRunning_halted {s : State} (k : Host.Outcome State Fault Refusal) (h : s.halt = true) :
    whenRunning s k = .next (quiet s) := by simp [whenRunning, h]

theorem whenRunning_running {s : State} (k : Host.Outcome State Fault Refusal) (h : s.halt = false) :
    whenRunning s k = k := by simp [whenRunning, h]

/-- A frame that fits: the bytes held, then the terminator, which is stored at LEN. -/
theorem completeFrame_fits {s : State} (h : s.len < s.frameCap) :
    completeFrame s = .next (⟨(List.range s.len).map s.buf.read ++ [Config.termByte], s.len + 1, false⟩,
      putByte s.len Config.termByte s) := by
  simp [completeFrame, h, bufReadPrefix_next h.le, bufWrite_next _ h]

/-- A frame that does not fit: the first FRAME_CAP bytes, and the state as it was. -/
theorem completeFrame_overlong {s : State} (h : s.frameCap ≤ s.len) :
    completeFrame s = .next (⟨(List.range s.frameCap).map s.buf.read, s.len + 1, true⟩, s) := by
  simp [completeFrame, Nat.not_lt.mpr h, bufReadPrefix_next le_rfl]

/-- The low bounds after a configuration write. -/
theorem writeBoundary_bndLo (a : CfgAddr) (v : Freq) (s : State) :
    (writeBoundary a v s).bndLo
      = if a.toNat ≤ Config.lastBoundaryAddr ∧ isLowBound a = true then s.bndLo.setIfInBounds (boundaryRow a) v
        else s.bndLo := by
  unfold writeBoundary
  split_ifs <;> simp_all

/-- The high bounds after a configuration write. -/
theorem writeBoundary_bndHi (a : CfgAddr) (v : Freq) (s : State) :
    (writeBoundary a v s).bndHi
      = if a.toNat ≤ Config.lastBoundaryAddr ∧ isLowBound a = false then s.bndHi.setIfInBounds (boundaryRow a) v
        else s.bndHi := by
  unfold writeBoundary
  split_ifs <;> simp_all

/-- What selecting the next operation can do: NODATA with nothing presented, the decoded operation of the oldest word, or
a refusal of that word. -/
theorem fetch_cases (s : State) :
    (s.input = [] ∧ fetch s = .next (.nodata, s)) ∨
    (∃ w rest i, s.input = w :: rest ∧ decode w = .ok i ∧
      fetch s = .next (i, setInput (restOfWord w ++ rest) s)) ∨
    (∃ w rest e, s.input = w :: rest ∧ decode w = .error e ∧ fetch s = .refused (.undecodable e)) := by
  unfold fetch
  cases s.input with
  | nil => exact .inl ⟨rfl, rfl⟩
  | cons w rest =>
    cases h : decode w with
    | ok i => exact .inr (.inl ⟨w, rest, i, rfl, h, by simp [h]⟩)
    | error e => exact .inr (.inr ⟨w, rest, e, rfl, h, by simp [h]⟩)

end Sys2Proof.Machine
end

