-- ==== Sys2Proof/Laws/Exec.lean ====
section
/-!
SUPPORT. For each event operation, once, what it answers; then `exec_cases`, which says once everything that the meaning
of any instruction can do. Proofs about all instructions cite it instead of unfolding the meanings.
-/

namespace Sys2Proof.Machine

theorem exec_nodata (s : State) : exec .nodata s = .next (quiet s) := by
  rcases whenRunning_cases s (.next (quiet s)) with h | h <;> exact h.2

theorem exec_rderr {s : State} (h : s.halt = false) : exec .rderr s = .next (takeStreamError s) :=
  whenRunning_running _ h

theorem exec_cfgwr {s : State} (a : CfgAddr) (v : Freq) (h : s.halt = false) :
    exec (.cfgwr a v) s = .next (quiet (writeBoundary a v s)) :=
  whenRunning_running _ h

theorem exec_acc_stored {s : State} (b : Byte) (h : s.halt = false) (hl : s.len < s.frameCap) :
    exec (.acc b) s = .next (quiet (setLen (s.len + 1) (putByte s.len b s))) :=
  (whenRunning_running _ h).trans (by rw [if_pos hl, bufWrite_next _ hl]; rfl)

theorem exec_acc_dropped {s : State} (b : Byte) (h : s.halt = false) (hl : s.frameCap ≤ s.len) :
    exec (.acc b) s = .next (quiet s) :=
  (whenRunning_running _ h).trans (if_neg (Nat.not_lt.mpr hl))

theorem exec_term_fits {s : State} (h : s.halt = false) (hl : s.len < s.frameCap) :
    exec .term s = .next (emit (pipe s.bndLo s.bndHi ⟨partialFrame s ++ [Config.termByte], s.len + 1, false⟩)
      (setLen 0 (putByte s.len Config.termByte s))) :=
  (whenRunning_running _ h).trans (by rw [completeFrame_fits hl]; rfl)

theorem exec_term_overlong {s : State} (h : s.halt = false) (hl : s.frameCap ≤ s.len) :
    exec .term s = .next (emit (pipe s.bndLo s.bndHi ⟨(List.range s.frameCap).map s.buf.read, s.len + 1, true⟩)
      (setLen 0 s)) :=
  (whenRunning_running _ h).trans (by rw [completeFrame_overlong hl]; rfl)

/-- While halted, an event other than RST gives the state back, with nothing output. -/
theorem exec_halted {s : State} (h : s.halt = true) {i : Instr} (he : isEvent i = true) (hi : i ≠ .rst) :
    exec i s = .next (quiet s) := by
  cases i <;> first
    | exact absurd rfl hi
    | exact absurd he Bool.false_ne_true
    | exact whenRunning_halted _ h

/-- An operation that is no event presents a value and does nothing else. -/
theorem exec_stage (s : State) {i : Instr} (he : isEvent i = false) : ∃ v, exec i s = .next (showStage v s) := by
  cases i <;> first | exact absurd he.symm Bool.false_ne_true | exact ⟨_, rfl⟩

/-- Everything the meaning of an instruction can do. -/
theorem exec_cases (i : Instr) (s : State) :
    (i = .rst ∧ exec i s = .next (resetBlock s)) ∨
    (isEvent i = false ∧ ∃ v, exec i s = .next (showStage v s)) ∨
    (i ≠ .rst ∧ isEvent i = true ∧ s.halt = true ∧ exec i s = .next (quiet s)) ∨
    (i = .nodata ∧ s.halt = false ∧ exec i s = .next (quiet s)) ∨
    (i = .rderr ∧ s.halt = false ∧ exec i s = .next (takeStreamError s)) ∨
    (s.halt = false ∧ ∃ a v, i = .cfgwr a v ∧ exec i s = .next (quiet (writeBoundary a v s))) ∨
    (s.halt = false ∧ s.len < s.frameCap ∧ ∃ b, i = .acc b ∧
      exec i s = .next (quiet (setLen (s.len + 1) (putByte s.len b s)))) ∨
    (s.halt = false ∧ s.frameCap ≤ s.len ∧ ∃ b, i = .acc b ∧ exec i s = .next (quiet s)) ∨
    (s.halt = false ∧ s.len < s.frameCap ∧ i = .term ∧
      exec i s = .next (emit (pipe s.bndLo s.bndHi ⟨partialFrame s ++ [Config.termByte], s.len + 1, false⟩)
        (setLen 0 (putByte s.len Config.termByte s)))) ∨
    (s.halt = false ∧ s.frameCap ≤ s.len ∧ i = .term ∧
      exec i s = .next (emit (pipe s.bndLo s.bndHi ⟨(List.range s.frameCap).map s.buf.read, s.len + 1, true⟩)
        (setLen 0 s))) := by
  cases he : isEvent i
  · exact .inr (.inl ⟨rfl, exec_stage s he⟩)
  by_cases hr : i = .rst
  · subst hr; exact .inl ⟨rfl, rfl⟩
  cases h : s.halt
  · cases i <;> simp [isEvent] at he hr
    · simp [exec_rderr h]
    · rcases Nat.lt_or_ge s.len s.frameCap with hl | hl
      · simp [exec_term_fits h hl, hl]
      · simp [exec_term_overlong h hl, hl]
    · rename_i b
      rcases Nat.lt_or_ge s.len s.frameCap with hl | hl
      · simp [exec_acc_stored b h hl, hl]
      · simp [exec_acc_dropped b h hl, hl]
    · simp [exec_nodata]
    · rename_i a v
      simp [exec_cfgwr a v h]
  · simp [exec_halted h he hr, hr]

/-- The fields of PIPE's record that are the frame's own. -/
theorem pipe_frame_fields (los his : Vector Freq 11) (f : Frame) :
    (pipe los his f).kind = .frame ∧ (pipe los his f).frame = some f.bytes ∧ (pipe los his f).flen = some f.flen ∧
      (pipe los his f).overlong = some f.overlong ∧ (pipe los his f).accepted = some (filterFrame f) := by
  rcases pipe_cases los his f with ⟨hf, h⟩ | ⟨hf, _, h⟩ | ⟨q, hf, _, _, h⟩ | ⟨q, b, hf, _, _, _, h⟩ | ⟨q, b, hf, _, _, _, h⟩ <;>
    simp [h, frameRecord, hf]

/-- A bound after one register of its file is replaced. -/
theorem bound_setIfInBounds (bs : Vector Freq 11) (n : Nat) (v : Freq) (r : Row) :
    bound (bs.setIfInBounds n v) r = if n = r.val then v else bound bs r := by
  simp [bound, Vector.getElem_setIfInBounds]

/-- The range test of one row, as numbers. -/
theorem rowContains_iff (los his : Vector Freq 11) (f : Freq) (r : Row) :
    rowContains los his f r = true ↔ InRow los his r f := by
  simp [rowContains, inRange, InRow]

/-- What well-formedness of a state says. -/
theorem State.wf_iff (s : State) :
    s.wf = true ↔ Config.minFrameCap ≤ s.frameCap ∧ s.len ≤ s.frameCap ∧ s.buf.wf = true ∧
      s.buf.below s.frameCap = true ∧ ∀ j, j < s.len → s.buf.read j ≠ Config.termByte := by
  simp [State.wf, framing, and_assoc]

end Sys2Proof.Machine
end

