-- ==== Sys2Proof/Laws/Literals.lean ====
section
/-!
SUPPORT. What the constants of Config come to with the document's values, so that no proof about an encoding, a frame or
the code table unfolds how they are put together.
-/

namespace Sys2Proof

@[simp] theorem byteVector_termByte : byteVector Config.termByte = 0x1FD#11 := rfl

/-- The bytes of a frequency message (`30_encoding.md` rule R63). -/
@[simp] theorem freqMsgBytes_eq (h0 h1 h4 fq0 fq1 fq2 fq3 fq4 : Byte) :
    freqMsgBytes h0 h1 [h4] fq0 fq1 fq2 fq3 fq4
      = [h0, h1, 0x00#8, 0x94#8, h4, fq0, fq1, fq2, fq3, fq4, 0xFD#8] := rfl

/-- A well-formed FREQMSG has one unchecked byte beside H0 and H1. -/
theorem freqmsg_wf_iff (h0 h1 : Byte) (h4 : List Byte) (fq0 fq1 fq2 fq3 fq4 : Byte) :
    (Instr.freqmsg h0 h1 h4 fq0 fq1 fq2 fq3 fq4).wf = true ↔
      ∃ h, h4 = [h] ∧ noTerminator [h0, h1, h, fq0, fq1, fq2, fq3, fq4] = true := by
  have hlen : Config.uncheckedOffs.length - 2 = 1 := rfl
  simp only [Instr.wf, hlen, Bool.and_eq_true, decide_eq_true_eq, List.length_eq_one_iff]
  constructor
  · rintro ⟨⟨⟨h, rfl⟩, ha⟩, hb⟩
    exact ⟨h, rfl, by simp_all [noTerminator]⟩
  · rintro ⟨h, rfl, ha⟩
    exact ⟨⟨⟨h, rfl⟩, by simp_all [noTerminator]⟩, by simp_all [noTerminator]⟩

/-- How a frequency message is classified: its unchecked and its frequency bytes, by name. -/
theorem classifyFrame_freqMsg (h0 h1 h4 fq0 fq1 fq2 fq3 fq4 : Byte) :
    classifyFrame ⟨[h0, h1, 0x00#8, 0x94#8, h4, fq0, fq1, fq2, fq3, fq4, 0xFD#8], 11, false⟩
      = .freqmsg h0 h1 [h4] fq0 fq1 fq2 fq3 fq4 := rfl

/-- The code table, written out (`44_band_code_encoder.md` rule R150). -/
theorem bandCodes_eq :
    Config.bandCodes =
      [(160#10, ⟨false, false, false, true⟩), (80#10, ⟨false, false, true, false⟩),
       (60#10, ⟨false, false, false, false⟩), (40#10, ⟨false, false, true, true⟩),
       (30#10, ⟨false, true, false, false⟩), (20#10, ⟨false, true, false, true⟩),
       (17#10, ⟨false, true, true, false⟩), (15#10, ⟨false, true, true, true⟩),
       (12#10, ⟨true, false, false, false⟩), (10#10, ⟨true, false, false, true⟩),
       (6#10, ⟨true, false, true, false⟩)] := rfl

/-- The frequency field of a frequency message. -/
@[simp] theorem Machine.frequencyField_freqMsgFrame (h0 h1 h4 fq0 fq1 fq2 fq3 fq4 : Byte) :
    Machine.frequencyField (Machine.freqMsgFrame h0 h1 [h4] fq0 fq1 fq2 fq3 fq4)
      = packOperand fq0 fq1 fq2 fq3 fq4 := rfl

end Sys2Proof
end

