-- ==== Sys2Proof/Laws/PerInstr.lean ====
section
/-!
SUPPORT. Facts about every instruction as syntax, one lemma per constructor.
-/

namespace Sys2Proof.Laws

/-- The word has a format of the opcode table (`30_encoding.md` rule R75). -/
def hasFormat : InputWord → Bool
  | .noFormat _ _ => false
  | _ => true

/-- The encoder gives every instruction a word of a format of the table. -/
def EncodeHasFormat.Statement (i : Instr) : Prop := hasFormat (encode i) = true

theorem EncodeHasFormat.rst : EncodeHasFormat.Statement .rst := rfl

theorem EncodeHasFormat.rderr : EncodeHasFormat.Statement .rderr := rfl

theorem EncodeHasFormat.term : EncodeHasFormat.Statement .term := rfl

theorem EncodeHasFormat.acc (b : Byte) : EncodeHasFormat.Statement (.acc b) := rfl

theorem EncodeHasFormat.nodata : EncodeHasFormat.Statement .nodata := rfl

theorem EncodeHasFormat.cfgwr (a : CfgAddr) (v : Freq) : EncodeHasFormat.Statement (.cfgwr a v) := rfl

theorem EncodeHasFormat.freqmsg (h0 h1 : Byte) (h4 : List Byte) (fq0 fq1 fq2 fq3 fq4 : Byte) :
    EncodeHasFormat.Statement (.freqmsg h0 h1 h4 fq0 fq1 fq2 fq3 fq4) := rfl

theorem EncodeHasFormat.other (f : Frame) : EncodeHasFormat.Statement (.other f) := rfl

theorem EncodeHasFormat.filter (f : Frame) : EncodeHasFormat.Statement (.filter f) := rfl

theorem EncodeHasFormat.bcddec (fq0 fq1 fq2 fq3 fq4 : Byte) : EncodeHasFormat.Statement (.bcddec fq0 fq1 fq2 fq3 fq4) := rfl

theorem EncodeHasFormat.bandmap (f : Freq) : EncodeHasFormat.Statement (.bandmap f) := rfl

theorem EncodeHasFormat.bandenc (b : Band) : EncodeHasFormat.Statement (.bandenc b) := rfl

theorem EncodeHasFormat.pipe (f : Frame) : EncodeHasFormat.Statement (.pipe f) := rfl

theorem EncodeHasFormat.bandmap160 (f : Freq) : EncodeHasFormat.Statement (.bandmap160 f) := rfl

theorem EncodeHasFormat.bandmap80 (f : Freq) : EncodeHasFormat.Statement (.bandmap80 f) := rfl

theorem EncodeHasFormat.bandmap60 (f : Freq) : EncodeHasFormat.Statement (.bandmap60 f) := rfl

theorem EncodeHasFormat.bandmap40 (f : Freq) : EncodeHasFormat.Statement (.bandmap40 f) := rfl

theorem EncodeHasFormat.bandmap30 (f : Freq) : EncodeHasFormat.Statement (.bandmap30 f) := rfl

theorem EncodeHasFormat.bandmap20 (f : Freq) : EncodeHasFormat.Statement (.bandmap20 f) := rfl

theorem EncodeHasFormat.bandmap17 (f : Freq) : EncodeHasFormat.Statement (.bandmap17 f) := rfl

theorem EncodeHasFormat.bandmap15 (f : Freq) : EncodeHasFormat.Statement (.bandmap15 f) := rfl

theorem EncodeHasFormat.bandmap12 (f : Freq) : EncodeHasFormat.Statement (.bandmap12 f) := rfl

theorem EncodeHasFormat.bandmap10 (f : Freq) : EncodeHasFormat.Statement (.bandmap10 f) := rfl

theorem EncodeHasFormat.bandmap6 (f : Freq) : EncodeHasFormat.Statement (.bandmap6 f) := rfl

theorem EncodeHasFormat.bandenc160 : EncodeHasFormat.Statement .bandenc160 := rfl

theorem EncodeHasFormat.bandenc80 : EncodeHasFormat.Statement .bandenc80 := rfl

theorem EncodeHasFormat.bandenc60 : EncodeHasFormat.Statement .bandenc60 := rfl

theorem EncodeHasFormat.bandenc40 : EncodeHasFormat.Statement .bandenc40 := rfl

theorem EncodeHasFormat.bandenc30 : EncodeHasFormat.Statement .bandenc30 := rfl

theorem EncodeHasFormat.bandenc20 : EncodeHasFormat.Statement .bandenc20 := rfl

theorem EncodeHasFormat.bandenc17 : EncodeHasFormat.Statement .bandenc17 := rfl

theorem EncodeHasFormat.bandenc15 : EncodeHasFormat.Statement .bandenc15 := rfl

theorem EncodeHasFormat.bandenc12 : EncodeHasFormat.Statement .bandenc12 := rfl

theorem EncodeHasFormat.bandenc10 : EncodeHasFormat.Statement .bandenc10 := rfl

theorem EncodeHasFormat.bandenc6 : EncodeHasFormat.Statement .bandenc6 := rfl

theorem EncodeHasFormat.bandencUnknown (b : Band) : EncodeHasFormat.Statement (.bandencUnknown b) := rfl

end Sys2Proof.Laws
end

