-- ==== Sys2Proof/Tests/Slice0.lean ====
section
/-!
SUPPORT. The model's own tests: ill-formed terms refused, words written out from the encodings, single steps of the
vectors of `95_test_vectors.md` (their identifiers stand in the comments; every expected value is the spec's), and for
each statement with hypotheses a state and operands that meet them.
-/

namespace Sys2Proof.Tests

open Sys2Proof Sys2Proof.Machine

/-- The reset state with some bytes accumulated. -/
def holding (bs : List Byte) : State :=
  setLen bs.length (bs.zipIdx.foldl (fun s p => putByte p.2 p.1 s) State.reset)

/-- The reset state, halted. -/
def haltedState : State := setHalt true State.reset

/-- The reset state with words presented. -/
def presented (ws : List InputWord) : State := setInput ws State.reset

/-- A property of the next state, false where there is none. -/
def nextHas (x : Host.Outcome State Fault Refusal) (p : State → Bool) : Bool :=
  match x with
  | .next t => p t
  | .fault _ => false
  | .refused _ => false

/-- The ten bytes before the terminator of the message for 14,074,000 Hz (E1). -/
def ft8Prefix : List Byte := [0xFE#8, 0xFE#8, 0x00#8, 0x94#8, 0x00#8, 0x00#8, 0x40#8, 0x07#8, 0x14#8, 0x00#8]

/-- The completed frame of E1. -/
def ft8Frame : Frame := ⟨ft8Prefix ++ [0xFD#8], 11, false⟩

/-- The record of E7: fourteen bytes in all at FRAME_CAP = 11. -/
def elevenBytes : List Byte :=
  [0x01#8, 0x02#8, 0x03#8, 0x04#8, 0x05#8, 0x06#8, 0x07#8, 0x08#8, 0x09#8, 0x0A#8, 0x0B#8]

/-- The completed frame of E7. -/
def longFrame : Frame := ⟨elevenBytes, 12, true⟩

/-! ## Well-formedness: each check refuses an ill-formed term -/

theorem test_wf_acc_terminator : (Instr.acc 0xFD#8).wf = false := by decide

theorem test_wf_freqmsg_terminator_in_field :
    (Instr.freqmsg 0xFE#8 0xFE#8 [0x00#8] 0xFD#8 0x40#8 0x07#8 0x14#8 0x00#8).wf = false := by decide

theorem test_wf_freqmsg_missing_unchecked_byte :
    (Instr.freqmsg 0xFE#8 0xFE#8 [] 0x00#8 0x40#8 0x07#8 0x14#8 0x00#8).wf = false := by decide

theorem test_wf_other_of_freqmsg : (Instr.other ft8Frame).wf = false := by decide

theorem test_wf_frame_wrong_length : (Instr.other ⟨[0x01#8, 0xFD#8], 3, false⟩).wf = false := by decide

theorem test_wf_frame_inner_terminator : (Instr.filter ⟨[0xFD#8, 0xFD#8], 2, false⟩).wf = false := by decide

theorem test_wf_frame_unterminated : (Instr.filter ⟨[0x01#8], 1, false⟩).wf = false := by decide

theorem test_wf_frame_empty : (Instr.pipe ⟨[], 0, false⟩).wf = false := by decide

theorem test_wf_overlong_too_short : (Instr.pipe ⟨elevenBytes.take 10, 11, true⟩).wf = false := by decide

theorem test_wf_overlong_wrong_length : (Instr.pipe ⟨elevenBytes, 11, true⟩).wf = false := by decide

theorem test_wf_overlong_with_terminator :
    (Instr.pipe ⟨elevenBytes.take 10 ++ [0xFD#8], 12, true⟩).wf = false := by decide

theorem test_wf_unknown_of_known_band : (Instr.bandencUnknown 160#10).wf = false := by decide

/-! ## Decode: rejections by name -/

theorem test_reject_unterminated : decode (.frame false [0x01#8]) = .error .notTerminated := by decide

theorem test_reject_inner_terminator : decode (.filter false [0xFD#8, 0xFD#8]) = .error .innerTerminator := by decide

theorem test_reject_overlong_terminator :
    decode (.pipe true (ft8Prefix ++ [0xFD#8])) = .error .innerTerminator := by decide

theorem test_reject_overlong_too_short : decode (.pipe true ft8Prefix) = .error .overlongTooShort := by decide

theorem test_reject_no_format : decode (.noFormat 24 0) = .error (.noFormat 24) := by decide

theorem test_step_refuses_by_name : step (presented [.frame false []]) = .refused (.undecodable .notTerminated) := rfl

/-! ## Decode: words written out from the encodings of R61, R62, R63, R66, R75 -/

/-- EV1: rst alone. -/
theorem test_decode_ev1 : decode (.instant 0b10000000000#11 0#40) = .ok .rst := by decide

/-- EV2: rst wins over error, valid and a terminator. -/
theorem test_decode_ev2 : decode (.instant 0b11111111101#11 0#40) = .ok .rst := by decide

/-- EV4. -/
theorem test_decode_ev4 : decode (.instant 0b01000000000#11 0#40) = .ok .rderr := by decide

/-- EV5: error wins over a valid terminator. -/
theorem test_decode_ev5 : decode (.instant 0b01111111101#11 0#40) = .ok .rderr := by decide

/-- EV7. -/
theorem test_decode_ev7 : decode (.instant 0b00111111101#11 0#40) = .ok .term := by decide

/-- EV8. -/
theorem test_decode_ev8 : decode (.instant 0b00111111110#11 0#40) = .ok (.acc 0xFE#8) := by decide

/-- EV9: 0x00 is plain data. -/
theorem test_decode_ev9 : decode (.instant 0b00100000000#11 0#40) = .ok (.acc 0x00#8) := by decide

/-- EV11: one bit from the terminator. -/
theorem test_decode_ev11 : decode (.instant 0b00111111100#11 0#40) = .ok (.acc 0xFC#8) := by decide

/-- EV12: bit 7 clear. -/
theorem test_decode_ev12 : decode (.instant 0b00101111101#11 0#40) = .ok (.acc 0x7D#8) := by decide

/-- EV13. -/
theorem test_decode_ev13 : decode (.instant 0b00000000000#11 0#40) = .ok .nodata := by decide

/-- EV14: in_valid = 0. -/
theorem test_decode_ev14 : decode (.instant 0b00011111101#11 0#40) = .ok .nodata := by decide

/-- CG1. -/
theorem test_decode_cg1 : decode (.instant 0#11 0x80001B9E50#40) = .ok (.cfgwr 0#5 1810000#34) := by decide

/-- CG3. -/
theorem test_decode_cg3 : decode (.instant 0#11 0xD403197500#40) = .ok (.cfgwr 21#5 52000000#34) := by decide

/-- CG5: a reserved address is still a CFGWR. -/
theorem test_decode_cg5 : decode (.instant 0#11 0xFC00000007#40) = .ok (.cfgwr 31#5 7#34) := by decide

/-- CG6: the largest value. -/
theorem test_decode_cg6 : decode (.instant 0#11 0xABFFFFFFFF#40) = .ok (.cfgwr 10#5 17179869183#34) := by decide

/-- CG7: cfg_we = 0 is no configuration event. -/
theorem test_decode_cg7 : decode (.instant 0x1FD#11 0x2C00DA3360#40) = .ok .term := by decide

/-- FI1 as a frame class. -/
theorem test_decode_freqmsg :
    decode (.frame false (ft8Prefix ++ [0xFD#8]))
    = .ok (.freqmsg 0xFE#8 0xFE#8 [0x00#8] 0x00#8 0x40#8 0x07#8 0x14#8 0x00#8) := by decide

/-- E7 as a frame class. -/
theorem test_decode_other : decode (.frame true elevenBytes) = .ok (.other longFrame) := by decide

theorem test_decode_filter :
    decode (.filter false [0x00#8, 0xFD#8]) = .ok (.filter ⟨[0x00#8, 0xFD#8], 2, false⟩) := by decide

theorem test_decode_pipe : decode (.pipe true elevenBytes) = .ok (.pipe longFrame) := by decide

/-- BD7: every lane distinct. -/
theorem test_decode_bcddec :
    decode (.bcddec 0x9078563412#40) = .ok (.bcddec 0x12#8 0x34#8 0x56#8 0x78#8 0x90#8) := by decide

theorem test_decode_bandmap : decode (.bandmap 0x000D6C090#34) = .ok (.bandmap 14074000#34) := by decide

theorem test_decode_bandenc : decode (.bandenc 0b1111100111#10) = .ok (.bandenc 999#10) := by decide

/-- The eleven rows in the order of the document. -/
theorem test_decode_range_rows :
    ((List.finRange 11).map fun r => decode (.range r 7#34)).map Except.toOption
    = [some (.bandmap160 7#34), some (.bandmap80 7#34), some (.bandmap60 7#34), some (.bandmap40 7#34),
      some (.bandmap30 7#34), some (.bandmap20 7#34), some (.bandmap17 7#34), some (.bandmap15 7#34),
      some (.bandmap12 7#34), some (.bandmap10 7#34), some (.bandmap6 7#34)] := by decide

/-- BE1 to BE11. -/
theorem test_decode_band_rows :
    [0b0010100000#10, 0b0001010000#10, 0b0000111100#10, 0b0000101000#10, 0b0000011110#10, 0b0000010100#10,
      0b0000010001#10, 0b0000001111#10, 0b0000001100#10, 0b0000001010#10, 0b0000000110#10].map (fun b => (decode (.band b)).toOption)
    = [some .bandenc160, some .bandenc80, some .bandenc60, some .bandenc40, some .bandenc30, some .bandenc20,
      some .bandenc17, some .bandenc15, some .bandenc12, some .bandenc10, some .bandenc6] := by decide

/-- BE24. -/
theorem test_decode_band_default : decode (.band 0b1111100111#10) = .ok (.bandencUnknown 999#10) := by decide

theorem test_table_word_rst : decodeTableWord 16 0x400 = some .rst := by decide

/-- The eleven code rows come before NODATA (log entry 7). -/
theorem test_table_word_band : decodeTableWord 16 0x0A0 = some .bandenc160 := by decide

theorem test_table_word_nodata : decodeTableWord 16 0x000 = some .nodata := by decide

/-- CG2. -/
theorem test_table_word_cfgwr : decodeTableWord 40 0xAC00DA3360 = some (.cfgwr 11#5 14300000#34) := by decide

/-- FI2. -/
theorem test_table_word_freqmsg :
    decodeTableWord 88 0x11220094330040071400FD
    = some (.freqmsg 0x11#8 0x22#8 [0x33#8] 0x00#8 0x40#8 0x07#8 0x14#8 0x00#8) := by decide

theorem test_table_word_other : decodeTableWord 88 0x0102030405060708090A0B = some (.other longFrame) := by decide

theorem test_table_word_band_exact : decodeTableWord 10 0x3E7 = some (.bandencUnknown 999#10) := by decide

theorem test_table_word_no_format : decodeTableWord 16 0x8000 = none := by decide

/-- EV8 as the first event after reset. -/
theorem test_step_runs_table_word :
    nextHas (step (State.reset.withFetchWord 16 0x1FE)) (fun t => t.len == 1 && t.input == []) = true := by decide

/-- BE2. -/
theorem test_step_runs_code_row :
    nextHas (step (State.reset.withFetchWord 16 0x050))
    (fun t => t.stage == some (.code ⟨false, false, true, false⟩ true .noError)) = true := by decide

/-! ## One step of each operation -/

/-- FR12, event 3. -/
theorem test_rst_leaves_halted :
    nextHas (exec .rst haltedState) (fun t => t.halt == false && t.out == none) = true := by decide

/-- SY1. -/
theorem test_rst_restores_boundaries :
    nextHas (exec .rst (setBounds Config.resetHigh Config.resetHigh (holding [0xFE#8])))
    (fun t => t.len == 0 && t.bndLo == Config.resetLow) = true := by decide

/-- FR10, event 3. -/
theorem test_rderr_halts :
    nextHas (exec .rderr (holding [0xFE#8, 0xFE#8]))
    (fun t => t.halt && t.len == 0 && (t.out.map Record.err) == some .streamReadError) = true := by decide

/-- FR11: a second error emits nothing. -/
theorem test_rderr_while_halted :
    nextHas (exec .rderr haltedState) (fun t => t.halt && t.out == none) = true := by decide

/-- FR1. -/
theorem test_term_shortest_frame :
    nextHas (exec .term State.reset) (fun t => t.out == some (rejection ⟨[0xFD#8], 1, false⟩)) = true := by decide

/-- E7. -/
theorem test_term_overlong :
    nextHas (exec .term (holding elevenBytes))
    (fun t => t.len == 0 && t.out == some (rejection longFrame)) = true := by decide

/-- P1, event 4, after other bytes. -/
theorem test_acc_appends :
    nextHas (exec (.acc 0x94#8) (holding [0xFE#8, 0x00#8]))
    (fun t => partialFrame t == [0xFE#8, 0x00#8, 0x94#8] && t.out == none) = true := by decide

/-- FR9: a byte that finds the buffer full is dropped. -/
theorem test_acc_dropped :
    nextHas (exec (.acc 0xAA#8) (holding elevenBytes)) (fun t => partialFrame t == elevenBytes) = true := by decide

/-- FR4. -/
theorem test_nodata :
    nextHas (exec .nodata (holding [0xFE#8])) (fun t => partialFrame t == [0xFE#8] && t.out == none) = true := by decide

/-- CG2. -/
theorem test_cfgwr_high_bound :
    nextHas (exec (.cfgwr 11#5 14300000#34) State.reset)
    (fun t => bound t.bndHi 5 == 14300000#34 && t.bndLo == Config.resetLow) = true := by decide

/-- SY2. -/
theorem test_cfgwr_reserved :
    nextHas (exec (.cfgwr 22#5 5#34) State.reset) (fun t => t == State.reset) = true := by decide

/-- E4. -/
theorem test_freqmsg :
    nextHas (exec (.freqmsg 0xFE#8 0xFE#8 [0x00#8] 0x00#8 0x00#8 0x50#8 0x02#8 0x00#8) State.reset)
    (fun t => match t.stage with
      | some (.record r) => r.freq == some 2500000#34 && r.band == none && r.err == .outOfBand
      | _ => false) = true := by decide

/-- FI11 as a frame class. -/
theorem test_other :
    nextHas (exec (.other ⟨[0x00#8, 0x94#8, 0xFD#8], 3, false⟩) State.reset)
    (fun t => t.stage == some (.record (rejection ⟨[0x00#8, 0x94#8, 0xFD#8], 3, false⟩))) = true := by decide

/-- FI1. -/
theorem test_filter_accepts :
    nextHas (exec (.filter ft8Frame) State.reset) (fun t => t.stage == some (.filter true)) = true := by decide

/-- FI6. -/
theorem test_filter_swapped_ids :
    nextHas (exec (.filter ⟨[0xFE#8, 0xFE#8, 0x94#8, 0x00#8, 0x00#8, 0x00#8, 0x40#8, 0x07#8, 0x14#8, 0x00#8, 0xFD#8], 11, false⟩)
    State.reset) (fun t => t.stage == some (.filter false)) = true := by decide

/-- BD7. -/
theorem test_bcddec_lanes :
    nextHas (exec (.bcddec 0x12#8 0x34#8 0x56#8 0x78#8 0x90#8) State.reset)
    (fun t => t.stage == some (.decoded 0x9078563412#40 (some 0x21D1FE254#34) .noError)) = true := by decide

/-- BD13. -/
theorem test_bcddec_malformed :
    nextHas (exec (.bcddec 0x0A#8 0x00#8 0x00#8 0x00#8 0x00#8) State.reset)
    (fun t => t.stage == some (.decoded 0x000000000A#40 none .malformedBcdDigits)) = true := by decide

/-- BM23. -/
theorem test_bandmap_upper_bound :
    nextHas (exec (.bandmap 14350000#34) State.reset) (fun t => t.stage == some (.band (some 20#10) .noError)) = true := by decide

/-- P6, event 13: of two rows that match, the lower wins. -/
theorem test_bandmap_first_match :
    nextHas (exec (.bandmap 14074000#34)
    (setBounds (Config.resetLow.set 6 14000000#34) (Config.resetHigh.set 6 14350000#34) State.reset))
    (fun t => t.stage == some (.band (some 20#10) .noError)) = true := by decide

/-- BE3. -/
theorem test_bandenc_zero_code :
    nextHas (exec (.bandenc 60#10) State.reset)
    (fun t => t.stage == some (.code ⟨false, false, false, false⟩ true .noError)) = true := by decide

/-- BE24, X5. -/
theorem test_bandenc_999 :
    nextHas (exec (.bandenc 999#10) State.reset)
    (fun t => t.stage == some (.code ⟨true, true, true, true⟩ false .unknownBandCode)) = true := by decide

/-- E1, X6. -/
theorem test_pipe_end_to_end :
    nextHas (exec (.pipe ft8Frame) State.reset) (fun t => match t.stage with
      | some (.record r) => r.freq == some 14074000#34 && r.band == some 20#10
          && r.code == some ⟨false, true, false, true⟩ && r.err == .noError
      | _ => false) = true := by decide

/-- E6. -/
theorem test_pipe_malformed :
    nextHas (exec (.pipe ⟨[0xFE#8, 0xFE#8, 0x00#8, 0x94#8, 0x00#8, 0x00#8, 0x40#8, 0x07#8, 0x1A#8, 0x00#8, 0xFD#8], 11, false⟩)
    State.reset) (fun t => match t.stage with
      | some (.record r) => r.digits == some 0x001A074000#40 && r.freq == none && r.err == .malformedBcdDigits
      | _ => false) = true := by decide

/-- BM3. -/
theorem test_bandmap160 :
    nextHas (exec (.bandmap160 2000000#34) State.reset) (fun t => t.stage == some (.row (some 160#10))) = true := by decide

/-- BM4. -/
theorem test_bandmap160_above :
    nextHas (exec (.bandmap160 2000001#34) State.reset) (fun t => t.stage == some (.row none)) = true := by decide

/-- BM7. -/
theorem test_bandmap80 :
    nextHas (exec (.bandmap80 3800000#34) State.reset) (fun t => t.stage == some (.row (some 80#10))) = true := by decide

/-- BM8. -/
theorem test_bandmap80_above :
    nextHas (exec (.bandmap80 3800001#34) State.reset) (fun t => t.stage == some (.row none)) = true := by decide

/-- BM11. -/
theorem test_bandmap60 :
    nextHas (exec (.bandmap60 5450000#34) State.reset) (fun t => t.stage == some (.row (some 60#10))) = true := by decide

/-- BM12. -/
theorem test_bandmap60_above :
    nextHas (exec (.bandmap60 5450001#34) State.reset) (fun t => t.stage == some (.row none)) = true := by decide

/-- BM15. -/
theorem test_bandmap40 :
    nextHas (exec (.bandmap40 7200000#34) State.reset) (fun t => t.stage == some (.row (some 40#10))) = true := by decide

/-- BM16. -/
theorem test_bandmap40_above :
    nextHas (exec (.bandmap40 7200001#34) State.reset) (fun t => t.stage == some (.row none)) = true := by decide

/-- BM19. -/
theorem test_bandmap30 :
    nextHas (exec (.bandmap30 10150000#34) State.reset) (fun t => t.stage == some (.row (some 30#10))) = true := by decide

/-- BM20. -/
theorem test_bandmap30_above :
    nextHas (exec (.bandmap30 10150001#34) State.reset) (fun t => t.stage == some (.row none)) = true := by decide

/-- BM23. -/
theorem test_bandmap20 :
    nextHas (exec (.bandmap20 14350000#34) State.reset) (fun t => t.stage == some (.row (some 20#10))) = true := by decide

/-- BM24. -/
theorem test_bandmap20_above :
    nextHas (exec (.bandmap20 14350001#34) State.reset) (fun t => t.stage == some (.row none)) = true := by decide

/-- BM27. -/
theorem test_bandmap17 :
    nextHas (exec (.bandmap17 18168000#34) State.reset) (fun t => t.stage == some (.row (some 17#10))) = true := by decide

/-- BM28. -/
theorem test_bandmap17_above :
    nextHas (exec (.bandmap17 18168001#34) State.reset) (fun t => t.stage == some (.row none)) = true := by decide

/-- BM31. -/
theorem test_bandmap15 :
    nextHas (exec (.bandmap15 21450000#34) State.reset) (fun t => t.stage == some (.row (some 15#10))) = true := by decide

/-- BM32. -/
theorem test_bandmap15_above :
    nextHas (exec (.bandmap15 21450001#34) State.reset) (fun t => t.stage == some (.row none)) = true := by decide

/-- BM35. -/
theorem test_bandmap12 :
    nextHas (exec (.bandmap12 24990000#34) State.reset) (fun t => t.stage == some (.row (some 12#10))) = true := by decide

/-- BM36. -/
theorem test_bandmap12_above :
    nextHas (exec (.bandmap12 24990001#34) State.reset) (fun t => t.stage == some (.row none)) = true := by decide

/-- BM39. -/
theorem test_bandmap10 :
    nextHas (exec (.bandmap10 29700000#34) State.reset) (fun t => t.stage == some (.row (some 10#10))) = true := by decide

/-- BM40. -/
theorem test_bandmap10_above :
    nextHas (exec (.bandmap10 29700001#34) State.reset) (fun t => t.stage == some (.row none)) = true := by decide

/-- BM43. -/
theorem test_bandmap6 :
    nextHas (exec (.bandmap6 52000000#34) State.reset) (fun t => t.stage == some (.row (some 6#10))) = true := by decide

/-- BM44. -/
theorem test_bandmap6_above :
    nextHas (exec (.bandmap6 52000001#34) State.reset) (fun t => t.stage == some (.row none)) = true := by decide

/-- BE1. -/
theorem test_bandenc160 :
    nextHas (exec .bandenc160 State.reset)
    (fun t => t.stage == some (.code ⟨false, false, false, true⟩ true .noError)) = true := by decide

/-- BE2. -/
theorem test_bandenc80 :
    nextHas (exec .bandenc80 State.reset)
    (fun t => t.stage == some (.code ⟨false, false, true, false⟩ true .noError)) = true := by decide

/-- BE3. -/
theorem test_bandenc60 :
    nextHas (exec .bandenc60 State.reset)
    (fun t => t.stage == some (.code ⟨false, false, false, false⟩ true .noError)) = true := by decide

/-- BE4. -/
theorem test_bandenc40 :
    nextHas (exec .bandenc40 State.reset)
    (fun t => t.stage == some (.code ⟨false, false, true, true⟩ true .noError)) = true := by decide

/-- BE5. -/
theorem test_bandenc30 :
    nextHas (exec .bandenc30 State.reset)
    (fun t => t.stage == some (.code ⟨false, true, false, false⟩ true .noError)) = true := by decide

/-- BE6. -/
theorem test_bandenc20 :
    nextHas (exec .bandenc20 State.reset)
    (fun t => t.stage == some (.code ⟨false, true, false, true⟩ true .noError)) = true := by decide

/-- BE7. -/
theorem test_bandenc17 :
    nextHas (exec .bandenc17 State.reset)
    (fun t => t.stage == some (.code ⟨false, true, true, false⟩ true .noError)) = true := by decide

/-- BE8. -/
theorem test_bandenc15 :
    nextHas (exec .bandenc15 State.reset)
    (fun t => t.stage == some (.code ⟨false, true, true, true⟩ true .noError)) = true := by decide

/-- BE9. -/
theorem test_bandenc12 :
    nextHas (exec .bandenc12 State.reset)
    (fun t => t.stage == some (.code ⟨true, false, false, false⟩ true .noError)) = true := by decide

/-- BE10. -/
theorem test_bandenc10 :
    nextHas (exec .bandenc10 State.reset)
    (fun t => t.stage == some (.code ⟨true, false, false, true⟩ true .noError)) = true := by decide

/-- BE11. -/
theorem test_bandenc6 :
    nextHas (exec .bandenc6 State.reset)
    (fun t => t.stage == some (.code ⟨true, false, true, false⟩ true .noError)) = true := by decide

/-- BE25; the stage is evaluated in the halted state too (log entry 2). -/
theorem test_bandenc_unknown :
    nextHas (exec (.bandencUnknown 1023#10) haltedState)
    (fun t => t.stage == some (.code ⟨true, true, true, true⟩ false .unknownBandCode)) = true := by decide

/-- The numbers of R190 and D10. -/
theorem test_error_codes :
    (errCode .frameOverlong).toNat = 6 ∧ (packCode ⟨true, false, false, false⟩).toNat = 8 := by decide

/-- E1 at signal level (R163). -/
theorem test_signals_of_a_frame :
    nextHas (exec .term (holding ft8Prefix)) (fun t => signals t ==
    { outFrameDone := true, outStreamError := false, outFrame := some (ft8Prefix ++ [0xFD#8]), outFlen := some 11,
      outOverlong := some false, outMatch := some true, outDigits := some 0x0014074000#40, outFreqValid := some true,
      outFreq := some 14074000#34, outBandValid := some true, outBand := some 20#10, outCodeValid := some true,
      outCode := some 0b0101#4, outErr := some 0#3, halted := false }) = true := by decide

/-- The values of R7, R8, R61 and R63 that follow from the constants. -/
theorem test_layout :
    Config.fqHiOff = 9 ∧ Config.uncheckedOffs = [0, 1, 4] ∧ Config.minFrameCap = 11 ∧ Config.defaultFrameCap = 11 ∧
    byteVector Config.termByte = 0x1FD#11 := by decide

/-- The model's choice: the level shows HALT after the step (log entry 21). -/
theorem test_halted_level :
    nextHas (exec .rderr State.reset) (fun t => (signals t).halted && (signals t).outStreamError) = true ∧
    nextHas (exec .rst haltedState) (fun t => (signals t).halted == false) = true := by decide

/-- LEN is LEN_W = 4 bits at FRAME_CAP = 11 (R8, R20), and FRAME_CAP fits in them. -/
theorem test_len_bits :
    (holding elevenBytes).len = 11 ∧ Config.lenWidth (holding elevenBytes).frameCap = 4 := by decide

/-- LEN_W and FLEN_W at FRAME_CAP = 11 (R8). -/
theorem test_widths : Config.lenWidth 11 = 4 ∧ Config.flenWidth 11 = 4 := by decide

/-! ## Witnesses: states and operands that meet the hypotheses of the statements -/

theorem witness_StepKeepsWellFormedStates :
    (presented [.instant 0x1FE#11 0#40]).wf = true ∧
    nextHas (step (presented [.instant 0x1FE#11 0#40])) (fun t => t.len == 1) = true := by decide

theorem witness_RderrHaltsAndReportsStreamError : State.reset.halt = false := by decide

theorem witness_AccStoresAtLenOrDrops_first :
    State.reset.halt = false ∧ State.reset.buf.wf = true ∧ State.reset.len < State.reset.frameCap := by decide

theorem witness_AccStoresAtLenOrDrops_last :
    (holding ft8Prefix).halt = false ∧ (holding ft8Prefix).buf.wf = true ∧
    (holding ft8Prefix).len + 1 = (holding ft8Prefix).frameCap := by decide

theorem witness_AccStoresAtLenOrDrops_full :
    (holding elevenBytes).halt = false ∧ (holding elevenBytes).buf.wf = true ∧
    (holding elevenBytes).frameCap ≤ (holding elevenBytes).len := by decide

theorem witness_TermCompletesAFrameThatFits_empty :
    State.reset.halt = false ∧ State.reset.buf.wf = true ∧ State.reset.len < State.reset.frameCap := by decide

theorem witness_TermCompletesAFrameThatFits_longest :
    (holding ft8Prefix).halt = false ∧ (holding ft8Prefix).buf.wf = true ∧
    (holding ft8Prefix).len + 1 = (holding ft8Prefix).frameCap := by decide

theorem witness_TermReportsAnOverlongFrame :
    (holding elevenBytes).halt = false ∧ (holding elevenBytes).len = (holding elevenBytes).frameCap := by decide

theorem witness_ReportedLengthIsLenPlusOne_fits :
    State.reset.wf = true ∧ State.reset.halt = false ∧ State.reset.len + 1 ≤ State.reset.frameCap := by decide

theorem witness_ReportedLengthIsLenPlusOne_overlong :
    (holding elevenBytes).wf = true ∧ (holding elevenBytes).halt = false ∧
    (holding elevenBytes).len + 1 = (holding elevenBytes).frameCap + 1 := by decide

theorem witness_ReportedLengthIsLenPlusOne_accepted :
    (holding ft8Prefix).wf = true ∧ (holding ft8Prefix).halt = false ∧
    nextHas (exec .term (holding ft8Prefix)) (fun t => (t.out.map Record.accepted) == some (some true)) = true := by decide

theorem witness_CfgwrWritesExactlyOneBound :
    State.reset.halt = false ∧ (0#5).toNat = 2 * (0 : Row).val ∧ (1#5).toNat = 2 * (0 : Row).val + 1 ∧
    (20#5).toNat = 2 * (10 : Row).val ∧ (21#5).toNat = 2 * (10 : Row).val + 1 := by decide

theorem witness_CfgwrToReservedAddressDoesNothing : 22 ≤ (22#5).toNat ∧ 22 ≤ (31#5).toNat := by decide

theorem witness_HaltedBlockIgnoresAllButRst :
    haltedState.halt = true ∧ isEvent .term = true ∧ Instr.term ≠ .rst ∧
    nextHas (exec .rst haltedState) (fun t => t.halt == false) = true := by decide

theorem witness_OnlyRderrRaisesStreamReadError :
    nextHas (exec .rderr State.reset) (fun t => t.halt && (t.out.map Record.err) == some .streamReadError) = true := by decide

theorem witness_OnlyCfgwrAndRstWriteBoundaries :
    nextHas (exec (.cfgwr 0#5 1#34) State.reset) (fun t => t.bndLo != State.reset.bndLo) = true ∧
    nextHas (exec .rst (setBounds Config.resetLow Config.resetLow State.reset)) (fun t => t.bndHi != Config.resetLow) = true := by decide

theorem witness_OnlyAccAndTermWriteBufAtLen :
    nextHas (exec (.acc 0x07#8) State.reset) (fun t => t.buf.read 0 != State.reset.buf.read 0) = true ∧
    nextHas (exec .term State.reset) (fun t => t.buf.read 0 != State.reset.buf.read 0) = true := by decide

theorem witness_RecordsComeFromTermAndRderrOnly :
    nextHas (exec .term State.reset) (fun t => t.out.isSome) = true ∧
    nextHas (exec .term haltedState) (fun t => t.out.isNone) = true := by decide

theorem witness_OnlyStreamReadErrorStopsTheBlock :
    nextHas (exec .term (holding elevenBytes)) (fun t => (t.out.map Record.err) == some .frameOverlong) = true ∧
    nextHas (exec .rderr State.reset) (fun t => (t.out.map Record.err) == some .streamReadError) = true := by decide

theorem witness_RecordsHaveTheShapesOfTheTable :
    nextHas (exec .term State.reset) (fun t => (t.out.bind Record.shape) == some .s1) = true ∧
    nextHas (exec .rderr State.reset) (fun t => (t.out.bind Record.shape) == some .s7) = true ∧
    nextHas (exec (.pipe longFrame) State.reset) (fun t => t.stage == some (.record (rejection longFrame))) = true := by decide

theorem witness_RepeatedSystemEventsAreIdempotent :
    nextHas (exec .rderr State.reset) (fun t => nextHas (exec .rderr t) (fun u => u.halt && u.out == none)) = true ∧
    nextHas (exec (.cfgwr 0#5 1#34) State.reset) (fun t => nextHas (exec (.cfgwr 0#5 1#34) t) (fun u => u == t)) = true := by decide

theorem witness_StageOperationsChangeNoState : isEvent (.bandmap 0#34) = false := by decide

theorem witness_FilterAcceptsFrequencyMessagesOnly :
    ft8Frame.wf = true ∧ filterFrame ft8Frame = true ∧ longFrame.wf = true ∧ filterFrame longFrame = false := by decide

/-- BD8. -/
theorem witness_StageResults_malformed : ∃ j, j < 10 ∧ 9 < (digit 0x001A074000#40 j).toNat := ⟨3, by decide⟩

/-- E4. -/
theorem witness_StageResults_out_of_band :
    (∀ j, j < 10 → (digit 0x0002500000#40 j).toNat ≤ 9) ∧ digitSum 0x0002500000#40 = 2500000 ∧
    ∀ w : Row, ¬ ((bound State.reset.bndLo w).toNat ≤ 2500000 ∧ 2500000 ≤ (bound State.reset.bndHi w).toNat) := by decide

/-- E1. -/
theorem witness_StageResults_band :
    (∀ j, j < 10 → (digit 0x0014074000#40 j).toNat ≤ 9) ∧ digitSum 0x0014074000#40 = 14074000 ∧
    FirstRow State.reset.bndLo State.reset.bndHi 5 14074000#34 := by unfold FirstRow InRow; decide

theorem witness_OtherFramesAreRejected :
    (Instr.other ⟨[0xFD#8], 1, false⟩).wf = true ∧ (Instr.other longFrame).wf = true ∧
    (Instr.other ⟨elevenBytes.take 10 ++ [0xFD#8], 11, false⟩).wf = true := by decide

theorem witness_BcddecDecodesPackedDigits :
    (∀ b ∈ [0x99#8, 0x00#8, 0x12#8], b.toNat / 16 ≤ 9 ∧ b.toNat % 16 ≤ 9) ∧ 9 < (0x0A#8).toNat % 16 ∧ 9 < (0xA0#8).toNat / 16 := by decide

/-- BD3, BD4. -/
theorem witness_BcdFieldsAndFrequenciesAreOneToOne :
    bcdFrequency 0x0000000000#40 = some 0#34 ∧ bcdFrequency 0x9999999999#40 = some 9999999999#34 := by decide

/-- X4. -/
theorem witness_BandmapTakesTheFirstRow_none :
    ∀ r, ¬ InRow State.reset.bndLo State.reset.bndHi r 14350001#34 := by unfold InRow; decide

/-- BM2, BM43. -/
theorem witness_BandmapTakesTheFirstRow_edges :
    FirstRow State.reset.bndLo State.reset.bndHi 0 1810000#34 ∧
    FirstRow State.reset.bndLo State.reset.bndHi 10 52000000#34 := by unfold FirstRow InRow; decide

/-- BM21 to BM24. -/
theorem witness_RangeRowsTestOneRange :
    InRow State.reset.bndLo State.reset.bndHi 5 14000000#34 ∧ InRow State.reset.bndLo State.reset.bndHi 5 14350000#34 ∧
    ¬ InRow State.reset.bndLo State.reset.bndHi 5 13999999#34 ∧ ¬ InRow State.reset.bndLo State.reset.bndHi 5 14350001#34 := by unfold InRow; decide

/-- Both ends of every gap. -/
theorem witness_ResetRangesAreDisjoint_gap_ends :
    [0#34, 1809999#34, 2000001#34, 3499999#34, 3800001#34, 5249999#34, 5450001#34, 6999999#34,
      7200001#34, 10099999#34, 10150001#34, 13999999#34, 14350001#34, 18067999#34, 18168001#34, 20999999#34,
      21450001#34, 24889999#34, 24990001#34, 27999999#34, 29700001#34, 49999999#34, 52000001#34, 9999999999#34].map
      (bandMap State.reset.bndLo State.reset.bndHi) = List.replicate 24 none := by decide

theorem witness_ResetRangesAreDisjoint_in_range :
    InRow State.reset.bndLo State.reset.bndHi 0 2000000#34 ∧ InRow State.reset.bndLo State.reset.bndHi 10 50000000#34 := by unfold InRow; decide

theorem witness_BandencLooksUpTheTable :
    (160#10, (⟨false, false, false, true⟩ : Code)) ∈ Config.bandCodes ∧ ∀ p ∈ Config.bandCodes, p.1 ≠ 999#10 := by decide

/-- BE12, BE15, BE22, BE25. -/
theorem witness_UnknownBandsGetTheSentinel :
    ∀ b ∈ [0#10, 7#10, 161#10, 1023#10],
    b ∉ [160#10, 80#10, 60#10, 40#10, 30#10, 20#10, 17#10, 15#10, 12#10, 10#10, 6#10] := by decide

theorem witness_BandCodesAreOneToOne : (6#10, (⟨true, false, true, false⟩ : Code)) ∈ Config.bandCodes := by decide

theorem witness_PipeBuildsTheRecordInStageOrder :
    ft8Frame.wf = true ∧ ft8Frame.isFreqMsg = true ∧ longFrame.wf = true ∧ longFrame.isFreqMsg = false := by decide

theorem witness_UnknownBandCodeIsUnreachableThroughPipe :
    bandMap State.reset.bndLo State.reset.bndHi 50000000#34 = some 6#10 := by decide

theorem witness_EndToEndExampleIsBandTwenty :
    (holding ft8Prefix).halt = false ∧ (holding ft8Prefix).len = 10 ∧ 11 ≤ (holding ft8Prefix).frameCap ∧
    (holding ft8Prefix).bndLo = State.reset.bndLo ∧ (holding ft8Prefix).bndHi = State.reset.bndHi ∧
    partialFrame (holding ft8Prefix)
      = [0xFE#8, 0xFE#8, 0x00#8, 0x94#8, 0x00#8, 0x00#8, 0x40#8, 0x07#8, 0x14#8, 0x00#8] := by decide

theorem witness_CfgwrAppliesToTheFrameUnderConstruction :
    (holding ft8Prefix).halt = false ∧ (holding ft8Prefix).len < (holding ft8Prefix).frameCap := by decide

theorem witness_BufferHoldsTheFirstBytesFed :
    State.reset.wf = true ∧ State.reset.halt = false ∧ State.reset.len = 0 ∧
    bytesFed [.acc 0x01#8, .nodata, .cfgwr 0#5 1#34, .acc 0x02#8] = some [0x01#8, 0x02#8] := by decide

/-- The shortest frame. -/
theorem witness_FedSequenceIsReportedAsOneFrame_empty :
    bytesFed [] = some [] ∧ ([] : List Byte).length + 1 ≤ State.reset.frameCap := by decide

theorem witness_FedSequenceIsReportedAsOneFrame_longest :
    bytesFed (ft8Prefix.map .acc) = some ft8Prefix ∧ ft8Prefix.length + 1 = State.reset.frameCap := by decide

theorem witness_FedSequenceIsReportedAsOneFrame_truncated :
    bytesFed (elevenBytes.map .acc) = some elevenBytes ∧ State.reset.frameCap < elevenBytes.length + 1 := by decide

/-- Agreement with different old bytes. -/
theorem witness_RecordsDoNotDependOnOldBufferBytes :
    (holding elevenBytes).buf.wf = true ∧ State.reset.buf.wf = true ∧
    Agree (setLen 0 (holding elevenBytes)) State.reset ∧ (holding elevenBytes).buf ≠ State.reset.buf := by unfold Agree; decide

theorem witness_DoneSignalsFollowTermAndRderr :
    nextHas (exec .term State.reset) (fun t => (signals t).outFrameDone) = true ∧
    nextHas (exec .rderr State.reset) (fun t => (signals t).outStreamError && (signals t).halted) = true := by decide

/-- A record that BANDENC's error would give (shape S5, which PIPE never builds). -/
def unknownBandRecord : Record :=
  { rejection ft8Frame with accepted := some true, band := some 999#10, err := .unknownBandCode }

theorem witness_SentinelIsDrivenWithoutValid :
    (emit unknownBandRecord State.reset).out = some unknownBandRecord ∧
    unknownBandRecord.err = .unknownBandCode ∧ unknownBandRecord.code = none ∧ State.reset.out = none := by decide

theorem witness_StepRunsTheDecodedInstruction :
    (presented [.instant 0x1FD#11 0x80001B9E50#40]).input = [.instant 0x1FD#11 0x80001B9E50#40] ∧
    decode (.instant 0x1FD#11 0x80001B9E50#40) = .ok (.cfgwr 0#5 1810000#34) := by decide

theorem witness_StepWithNothingPresentedIsNodata : State.reset.input = [] := by decide

theorem witness_StepIsTotalOnPortInput :
    ∀ w ∈ (presented [.instant 0x1FD#11 0#40]).input, ∃ e g, w = .instant e g := fun _ h => ⟨0x1FD#11, 0#40, List.mem_singleton.mp h⟩

theorem witness_StreamVectorSelectsTheEvent :
    (0#40).getLsbD 39 = false ∧ (0x7FD#11).getLsbD 10 = true ∧
    ((0x3FD#11).getLsbD 10 = false ∧ (0x3FD#11).getLsbD 9 = true) ∧
    ((0x1FD#11).getLsbD 9 = false ∧ (0x1FD#11).getLsbD 8 = true ∧ (0x1FD#11).extractLsb' 0 8 = 0xFD#8) ∧
    ((0x1FC#11).getLsbD 9 = false ∧ (0x1FC#11).getLsbD 8 = true ∧ (0x1FC#11).extractLsb' 0 8 ≠ 0xFD#8) ∧
    ((0x0FD#11).getLsbD 10 = false ∧ (0x0FD#11).getLsbD 9 = false ∧ (0x0FD#11).getLsbD 8 = false) := by decide

theorem witness_ConfigurationComesBeforeTheStreamEvent :
    (0x400#11).getLsbD 10 = true ∧ (0x1FD#11).getLsbD 10 = false := by decide

theorem witness_DecodeOfEncodeIsTheInstruction :
    (Instr.acc 0xFE#8).wf = true ∧ (Instr.cfgwr 31#5 7#34).wf = true ∧ (Instr.pipe longFrame).wf = true ∧
    (Instr.freqmsg 0xFE#8 0xFE#8 [0x00#8] 0x00#8 0x40#8 0x07#8 0x14#8 0x00#8).wf = true := by decide

theorem witness_DecodedInstructionsAreWellFormed :
    decode (.frame true elevenBytes) = .ok (.other longFrame) := by decide

end Sys2Proof.Tests
end

section
/-!
PROOFS, family `00_scope.md`: the block is total (R11). The meaning of every instruction answers a next state that leaves
the input alone; selecting the operation takes a word from the input and can refuse only what is no sampling instant.
-/

namespace Sys2Proof.Machine

/-- R72: whatever the state, the meaning of an instruction is defined, and it takes nothing of what is presented: that
is the part of `fetch` alone. -/
theorem exec_next_keeps_input (i : Instr) (s : State) : ∃ t, exec i s = .next t ∧ t.input = s.input := by
  rcases exec_cases i s with ⟨-, hrst⟩ | ⟨-, v, hstage⟩ | ⟨-, -, -, hhalted⟩ | ⟨-, -, hnodata⟩ | ⟨-, -, hrderr⟩ |
    ⟨-, a, v, -, hcfgwr⟩ | ⟨-, -, b, -, hstored⟩ | ⟨-, -, b, -, hdropped⟩ | ⟨-, -, -, hfits⟩ | ⟨-, -, -, hoverlong⟩
  · exact ⟨_, hrst, resetBlock_input s⟩
  · exact ⟨_, hstage, showStage_input v s⟩
  · exact ⟨_, hhalted, quiet_input s⟩
  · exact ⟨_, hnodata, quiet_input s⟩
  · exact ⟨_, hrderr, takeStreamError_input s⟩
  · exact ⟨_, hcfgwr, by simp⟩
  · exact ⟨_, hstored, by simp⟩
  · exact ⟨_, hdropped, quiet_input s⟩
  · exact ⟨_, hfits, by simp⟩
  · exact ⟨_, hoverlong, by simp⟩

/-- A step whose selection succeeds is the meaning of the selected instruction. -/
theorem step_of_fetch {s s' : State} {i : Instr} (h : fetch s = .next (i, s')) : step s = exec i s' := by
  rw [step, h, andThen_next]

/-- What is selected when the oldest presented word decodes. -/
theorem fetch_of_decode {s : State} {w : InputWord} {rest : List InputWord} {i : Instr} (hs : s.input = w :: rest)
    (hd : decode w = .ok i) : fetch s = .next (i, setInput (restOfWord w ++ rest) s) := by
  rcases fetch_cases s with ⟨hnil, -⟩ | ⟨w', rest', i', hs', hd', hf⟩ | ⟨w', rest', e, hs', hd', -⟩
  · exact absurd (hs.symm.trans hnil) (List.cons_ne_nil w rest)
  · obtain ⟨rfl, rfl⟩ := List.cons.inj (hs.symm.trans hs')
    obtain rfl := Except.ok.inj (hd.symm.trans hd')
    exact hf
  · obtain ⟨rfl, rfl⟩ := List.cons.inj (hs.symm.trans hs')
    exact nomatch hd.symm.trans hd'

/-- R62: whatever is left of a presented word is a sampling instant. -/
theorem instant_of_mem_restOfWord {v w : InputWord} (h : w ∈ restOfWord v) : ∃ e g, w = .instant e g := by
  cases v with
  | instant e g =>
    rw [restOfWord, restOfInstant] at h
    split_ifs at h
    · exact ⟨e, 0#40, List.mem_singleton.mp h⟩
    · exact absurd h List.not_mem_nil
  | _ => exact absurd h List.not_mem_nil

/-- R61: no sampling instant is refused. -/
theorem decode_instant_ne_error (e : StreamWord) (g : ConfigWord) (err : DecodeError) :
    decode (.instant e g) ≠ .error err := nofun

/-- Settles O14: `exec_cases` answers a next state in each of its cases. -/
theorem everyOperationHasANextState : Obligations.EveryOperationHasANextState := by
  intro i s
  obtain ⟨t, ht, -⟩ := exec_next_keeps_input i s
  exact ⟨t, ht⟩

/-- Settles O51: the selection refuses no sampling instant and leaves sampling instants, and the meaning of what is
selected is total and leaves the input alone. -/
theorem stepIsTotalOnPortInput : Obligations.StepIsTotalOnPortInput := by
  intro s hports
  rcases fetch_cases s with ⟨-, hf⟩ | ⟨w, rest, i, hs, -, hf⟩ | ⟨w, rest, err, hs, hd, -⟩
  · obtain ⟨t, ht, hin⟩ := exec_next_keeps_input .nodata s
    exact ⟨t, (step_of_fetch hf).trans ht, hin ▸ hports⟩
  · obtain ⟨t, ht, hin⟩ := exec_next_keeps_input i (setInput (restOfWord w ++ rest) s)
    refine ⟨t, (step_of_fetch hf).trans ht, fun v hv => ?_⟩
    rw [hin, setInput_input, List.mem_append] at hv
    rcases hv with hleft | hrest
    · exact instant_of_mem_restOfWord hleft
    · exact hports v (hs ▸ List.mem_cons_of_mem w hrest)
  · obtain ⟨e, g, rfl⟩ := hports w (hs ▸ List.mem_cons_self)
    exact absurd hd (decode_instant_ne_error e g err)

/-- Settles O49: the selection gives the decoded instruction, and the step runs what is selected. -/
theorem stepRunsTheDecodedInstruction : Obligations.StepRunsTheDecodedInstruction :=
  fun _ _ _ _ hs hd => step_of_fetch (fetch_of_decode hs hd)

end Sys2Proof.Machine
end

section
/-!
PROOFS, family `10_state.md`: what a step can do to the state. The meanings of the instructions are looked at three times,
each time through `exec_cases`: for the boundary registers and FRAME_CAP, for the frame buffer and LEN, and for the ports,
which no meaning reads. The well-formed states and the bytes that a run collects follow from these.
-/

namespace Sys2Proof.Machine

/-! ### What an instruction writes -/

/-- R25, R32: FRAME_CAP is never written, and the boundary registers by RST and CFGWR only. -/
theorem exec_bounds_cases {i : Instr} {s t : State} (h : exec i s = .next t) :
    t.frameCap = s.frameCap ∧
      ((t.bndLo = s.bndLo ∧ t.bndHi = s.bndHi) ∨ i = .rst ∨ ∃ a v, i = .cfgwr a v) := by
  rcases exec_cases i s with ⟨hi, hrun⟩ | ⟨-, v, hrun⟩ | ⟨-, -, -, hrun⟩ | ⟨-, -, hrun⟩ | ⟨-, -, hrun⟩ |
    ⟨-, a, v, hi, hrun⟩ | ⟨-, -, b, -, hrun⟩ | ⟨-, -, b, -, hrun⟩ | ⟨-, -, -, hrun⟩ | ⟨-, -, -, hrun⟩
  all_goals obtain rfl := Host.Outcome.next.inj (h.symm.trans hrun)
  · exact ⟨rfl, .inr (.inl hi)⟩
  · exact ⟨rfl, .inl ⟨rfl, rfl⟩⟩
  · exact ⟨rfl, .inl ⟨rfl, rfl⟩⟩
  · exact ⟨rfl, .inl ⟨rfl, rfl⟩⟩
  · exact ⟨rfl, .inl ⟨rfl, rfl⟩⟩
  · exact ⟨writeBoundary_frameCap a v s, .inr (.inr ⟨a, v, hi⟩)⟩
  · exact ⟨rfl, .inl ⟨rfl, rfl⟩⟩
  · exact ⟨rfl, .inl ⟨rfl, rfl⟩⟩
  · exact ⟨rfl, .inl ⟨rfl, rfl⟩⟩
  · exact ⟨rfl, .inl ⟨rfl, rfl⟩⟩

theorem exec_frameCap {i : Instr} {s t : State} (h : exec i s = .next t) : t.frameCap = s.frameCap :=
  (exec_bounds_cases h).1

/-- R21, R22: what an instruction can do to the buffer and to LEN: it leaves the buffer, and LEN is kept or cleared; an
ACC below FRAME_CAP stores its byte at LEN and counts it; a TERM below FRAME_CAP stores the terminator there. -/
theorem exec_buffer_cases {i : Instr} {s t : State} (h : exec i s = .next t) :
    (t.buf = s.buf ∧ (t.len = s.len ∨ t.len = 0)) ∨
    (s.halt = false ∧ s.len < s.frameCap ∧ ∃ b, i = .acc b ∧ t.buf = s.buf.write s.len b ∧ t.len = s.len + 1) ∨
    (s.halt = false ∧ s.len < s.frameCap ∧ i = .term ∧ t.buf = s.buf.write s.len Config.termByte ∧ t.len = 0) := by
  rcases exec_cases i s with ⟨-, hrun⟩ | ⟨-, v, hrun⟩ | ⟨-, -, -, hrun⟩ | ⟨-, -, hrun⟩ | ⟨-, -, hrun⟩ |
    ⟨-, a, v, -, hrun⟩ | ⟨hh, hl, b, hi, hrun⟩ | ⟨-, -, b, -, hrun⟩ | ⟨hh, hl, hi, hrun⟩ | ⟨-, -, -, hrun⟩
  all_goals obtain rfl := Host.Outcome.next.inj (h.symm.trans hrun)
  · exact .inl ⟨rfl, .inr (resetBlock_len s)⟩
  · exact .inl ⟨rfl, .inl rfl⟩
  · exact .inl ⟨rfl, .inl rfl⟩
  · exact .inl ⟨rfl, .inl rfl⟩
  · exact .inl ⟨rfl, .inr (takeStreamError_len s)⟩
  · exact .inl ⟨writeBoundary_buf a v s, .inl (writeBoundary_len a v s)⟩
  · exact .inr (.inl ⟨hh, hl, b, hi, rfl, setLen_succ_len (s := putByte s.len b s) hl⟩)
  · exact .inl ⟨rfl, .inl rfl⟩
  · exact .inr (.inr ⟨hh, hl, hi, rfl, setLen_zero_len _⟩)
  · exact .inl ⟨rfl, .inr (setLen_zero_len _)⟩

/-! ### The well-formed states -/

/-- The well-formed states but for the framing condition. Unlike that one, these conditions are kept by every
instruction, an ACC of the terminator, which the decoder never gives, among them. -/
structure Bounded (s : State) : Prop where
  cap : Config.minFrameCap ≤ s.frameCap
  len : s.len ≤ s.frameCap
  canonical : s.buf.wf = true
  below : s.buf.below s.frameCap = true

/-- No byte of the frame under construction is the terminator (R60). -/
def Unterminated (s : State) : Prop := ∀ j, j < s.len → s.buf.read j ≠ Config.termByte

theorem wf_iff_bounded_unterminated (s : State) : s.wf = true ↔ Bounded s ∧ Unterminated s := by
  rw [State.wf_iff]
  constructor
  · rintro ⟨hcap, hlen, hcanonical, hbelow, hframe⟩
    exact ⟨⟨hcap, hlen, hcanonical, hbelow⟩, hframe⟩
  · rintro ⟨⟨hcap, hlen, hcanonical, hbelow⟩, hframe⟩
    exact ⟨hcap, hlen, hcanonical, hbelow, hframe⟩

/-- One byte stored at LEN, below FRAME_CAP, keeps the bounds, whatever LEN becomes up to FRAME_CAP. -/
theorem Bounded.of_write {s t : State} {b : Byte} (hs : Bounded s) (hl : s.len < s.frameCap)
    (hcap : t.frameCap = s.frameCap) (hbuf : t.buf = s.buf.write s.len b) (hlen : t.len ≤ s.frameCap) : Bounded t where
  cap := hcap ▸ hs.cap
  len := hcap ▸ hlen
  canonical := hbuf ▸ Memory.wf_write s.len b hs.canonical
  below := by rw [hcap, hbuf]; exact Memory.below_write b hl hs.below

theorem exec_keeps_bounded {i : Instr} {s t : State} (hs : Bounded s) (h : exec i s = .next t) : Bounded t := by
  have hcap := exec_frameCap h
  rcases exec_buffer_cases h with ⟨hbuf, hlen⟩ | ⟨-, hl, b, -, hbuf, hlen⟩ | ⟨-, hl, -, hbuf, hlen⟩
  · have hle : t.len ≤ s.frameCap := by
      rcases hlen with hlen | hlen
      · exact hlen ▸ hs.len
      · exact hlen ▸ Nat.zero_le _
    exact ⟨hcap ▸ hs.cap, hcap ▸ hle, hbuf ▸ hs.canonical, by rw [hcap, hbuf]; exact hs.below⟩
  · exact hs.of_write hl hcap hbuf (hlen ▸ hl)
  · exact hs.of_write hl hcap hbuf (hlen ▸ Nat.zero_le _)

/-- R60: only an ACC lengthens the frame under construction, by the byte it carries. -/
theorem exec_keeps_unterminated {i : Instr} {s t : State} (hi : i ≠ .acc Config.termByte) (hwf : s.buf.wf = true)
    (hs : Unterminated s) (h : exec i s = .next t) : Unterminated t := by
  intro j hj
  rcases exec_buffer_cases h with ⟨hbuf, hlen⟩ | ⟨-, -, b, rfl, hbuf, hlen⟩ | ⟨-, -, -, -, hlen⟩
  · rw [hbuf]
    exact hs j (by omega)
  · rw [hbuf]
    rcases Nat.lt_or_ge j s.len with hlt | hge
    · rw [Memory.read_write_other b hlt.ne]
      exact hs j hlt
    · obtain rfl : j = s.len := by omega
      rw [Memory.read_write_same s.len b hwf]
      exact fun hb => hi (hb ▸ rfl)
  · omega

theorem exec_keeps_wf {i : Instr} {s t : State} (hi : i ≠ .acc Config.termByte) (hs : s.wf = true)
    (h : exec i s = .next t) : t.wf = true := by
  rw [wf_iff_bounded_unterminated] at hs ⊢
  obtain ⟨hb, hu⟩ := hs
  exact ⟨exec_keeps_bounded hb h, exec_keeps_unterminated hi hb.canonical hu h⟩

/-! ### The decoder gives no ACC of the terminator -/

/-- A stream vector is its three control bits and its data byte (R61). -/
theorem streamWord_eq_control_or_data (e : StreamWord) : e = (e &&& 0x700#11) ||| (e.setWidth 8).setWidth 11 := by
  apply BitVec.eq_of_getLsbD_eq
  intro k hk
  interval_cases k <;> simp

/-- R61: of the vectors that present a byte, the one whose data is the terminator is TERM's. -/
theorem decodeEvent_ne_acc_termByte (e : StreamWord) : decodeEvent e ≠ .acc Config.termByte := by
  unfold decodeEvent
  split_ifs with hrst hrderr hterm hacc
  · exact nofun
  · exact nofun
  · exact nofun
  · intro h
    have hdata : e.setWidth 8 = Config.termByte := Instr.acc.inj h
    exact hterm (by rw [streamWord_eq_control_or_data e, hacc, hdata]; rfl)
  · exact nofun

theorem decodeInstant_ne_acc_termByte (e : StreamWord) (g : ConfigWord) :
    decodeInstant e g ≠ .acc Config.termByte := by
  unfold decodeInstant
  split_ifs
  · exact nofun
  · exact nofun
  · exact decodeEvent_ne_acc_termByte e

/-- A bench word that presents a frame decodes to an operation on some frame. -/
theorem exists_frame_of_map_eq_ok {x : Except DecodeError Frame} {f : Frame → Instr} {i : Instr}
    (h : x.map f = .ok i) : ∃ fr, i = f fr := by
  cases x with
  | error e => exact nomatch h
  | ok fr => exact ⟨fr, (Except.ok.inj h).symm⟩

theorem isEvent_decodeBand (b : Band) : isEvent (decodeBand b) = false := by
  simp only [decodeBand, apply_ite isEvent]
  simp only [isEvent, ite_self]

/-- A bench word decodes to an operation evaluated alone (log entry 2). -/
theorem isEvent_of_decode_bench {w : InputWord} {i : Instr} (hw : ∀ e g, w ≠ .instant e g) (h : decode w = .ok i) :
    isEvent i = false := by
  cases w with
  | instant e g => exact absurd rfl (hw e g)
  | frame o bs =>
    obtain ⟨f, rfl⟩ := exists_frame_of_map_eq_ok h
    unfold classifyFrame
    split_ifs <;> rfl
  | filter o bs => obtain ⟨f, rfl⟩ := exists_frame_of_map_eq_ok h; rfl
  | bcddec w => obtain rfl := Except.ok.inj h; rfl
  | bandmap f => obtain rfl := Except.ok.inj h; rfl
  | bandenc b => obtain rfl := Except.ok.inj h; rfl
  | pipe o bs => obtain ⟨f, rfl⟩ := exists_frame_of_map_eq_ok h; rfl
  | range r f => obtain rfl := Except.ok.inj h; unfold decodeRange; split <;> rfl
  | band b => obtain rfl := Except.ok.inj h; rw [isEvent_decodeBand]
  | noFormat n v => exact nomatch h

theorem decode_ne_acc_termByte (w : InputWord) : decode w ≠ .ok (.acc Config.termByte) := by
  intro h
  by_cases hw : ∃ e g, w = .instant e g
  · obtain ⟨e, g, rfl⟩ := hw
    exact decodeInstant_ne_acc_termByte e g (Except.ok.inj h)
  · push Not at hw
    exact nomatch isEvent_of_decode_bench hw h

/-- What is selected is no ACC of the terminator, and selecting it takes from the input only. -/
theorem fetch_next {s u : State} {i : Instr} (h : fetch s = .next (i, u)) :
    i ≠ .acc Config.termByte ∧ ∃ ws, u = setInput ws s := by
  rcases fetch_cases s with ⟨-, hf⟩ | ⟨w, rest, j, -, hd, hf⟩ | ⟨w, rest, e, -, -, hf⟩
  · obtain ⟨rfl, rfl⟩ := Prod.mk.inj (Host.Outcome.next.inj (h.symm.trans hf))
    exact ⟨nofun, u.input, rfl⟩
  · obtain ⟨rfl, rfl⟩ := Prod.mk.inj (Host.Outcome.next.inj (h.symm.trans hf))
    exact ⟨fun hi => decode_ne_acc_termByte w (hi ▸ hd), _, rfl⟩
  · exact nomatch h.symm.trans hf

@[simp] theorem setInput_wf (ws : List InputWord) (s : State) : (setInput ws s).wf = s.wf := rfl

/-- Settles O3: the instruction selected is no ACC of the terminator, and every other one keeps the well-formed
states. -/
theorem stepKeepsWellFormedStates : Obligations.StepKeepsWellFormedStates := by
  intro s t hs h
  obtain ⟨⟨i, u⟩, hf, hrun⟩ := andThen_eq_next.mp h
  obtain ⟨hi, ws, rfl⟩ := fetch_next hf
  exact exec_keeps_wf hi (by rwa [setInput_wf]) hrun

/-- Settles O16. -/
theorem onlyCfgwrAndRstWriteBoundaries : Obligations.OnlyCfgwrAndRstWriteBoundaries := by
  intro i s t h
  obtain ⟨hcap, ⟨hlo, hhi⟩ | hwriter⟩ := exec_bounds_cases h
  · exact ⟨hcap, fun hne => (hne.elim (absurd hlo) (absurd hhi))⟩
  · exact ⟨hcap, fun _ => hwriter⟩

/-- Settles O17: where the buffer is written, a read of an index other than LEN is as before. -/
theorem onlyAccAndTermWriteBufAtLen : Obligations.OnlyAccAndTermWriteBufAtLen := by
  intro i s t a h hne
  have at_len {b : Byte} (hbuf : t.buf = s.buf.write s.len b) : a = s.len := by
    by_contra ha
    exact hne (by rw [hbuf, Memory.read_write_other b ha])
  rcases exec_buffer_cases h with ⟨hbuf, -⟩ | ⟨hh, hl, b, hi, hbuf, -⟩ | ⟨hh, hl, hi, hbuf, -⟩
  · exact absurd (by rw [hbuf]) hne
  · exact ⟨at_len hbuf, hl, hh, .inr ⟨b, hi⟩⟩
  · exact ⟨at_len hbuf, hl, hh, .inl hi⟩

/-! ### The ports are written, and never read -/

/-- The same block with other contents of its ports. -/
def withPorts (p : Ports) (s : State) : State := { s with ports := p }

theorem writeBoundary_withPorts (a : CfgAddr) (v : Freq) (p : Ports) (s : State) :
    writeBoundary a v (withPorts p s) = withPorts p (writeBoundary a v s) := by
  unfold writeBoundary
  split_ifs <;> rfl

/-- What an operation evaluated alone presents does not depend on the ports. -/
theorem exec_stage_withPorts {i : Instr} {s t : State} (p : Ports) (he : isEvent i = false) (h : exec i s = .next t) :
    exec i (withPorts p s) = .next (withPorts ⟨p.input, t.out, t.stage⟩ t) := by
  cases i <;> first
    | exact absurd he.symm Bool.false_ne_true
    | obtain rfl := Host.Outcome.next.inj h; rfl

/-- R20: with other contents of the ports an instruction leads to the same state and outputs the same; the input is the
one it was given. -/
theorem exec_withPorts {i : Instr} {s t : State} (p : Ports) (h : exec i s = .next t) :
    exec i (withPorts p s) = .next (withPorts ⟨p.input, t.out, t.stage⟩ t) := by
  rcases exec_cases i s with ⟨rfl, hrun⟩ | ⟨he, -, -⟩ | ⟨hi, he, hh, hrun⟩ | ⟨rfl, -, hrun⟩ | ⟨rfl, hh, hrun⟩ |
    ⟨hh, a, v, rfl, hrun⟩ | ⟨hh, hl, b, rfl, hrun⟩ | ⟨hh, hl, b, rfl, hrun⟩ | ⟨hh, hl, rfl, hrun⟩ | ⟨hh, hl, rfl, hrun⟩
  case inr.inl => exact exec_stage_withPorts p he h
  all_goals obtain rfl := Host.Outcome.next.inj (h.symm.trans hrun)
  · rfl
  · exact exec_halted (s := withPorts p s) hh he hi
  · exact exec_nodata (withPorts p s)
  · exact exec_rderr (s := withPorts p s) hh
  · rw [exec_cfgwr (s := withPorts p s) a v hh, writeBoundary_withPorts, quiet_out, quiet_stage]
    rfl
  · exact exec_acc_stored (s := withPorts p s) b hh hl
  · exact exec_acc_dropped (s := withPorts p s) b hh hl
  · exact exec_term_fits (s := withPorts p s) hh hl
  · exact exec_term_overlong (s := withPorts p s) hh hl

/-- Settles O22: the two next states differ in the input alone. -/
theorem nothingButTheArchitecturalStatePersists : Obligations.NothingButTheArchitecturalStatePersists := by
  intro i s p
  obtain ⟨t, ht, hin⟩ := exec_next_keeps_input i s
  exact ⟨t, _, ht, exec_withPorts p ht, rfl, rfl, rfl, rfl, rfl, rfl, rfl, rfl, hin, rfl⟩

/-! ### The bytes that a run collects -/

@[simp] theorem partialFrame_length (s : State) : (partialFrame s).length = s.len := by
  simp [partialFrame]

/-- The frame under construction is what LEN and the buffer say. -/
theorem partialFrame_congr {s t : State} (hlen : t.len = s.len) (hbuf : t.buf = s.buf) :
    partialFrame t = partialFrame s := by
  rw [partialFrame, hlen, hbuf, partialFrame]

/-- R26, R90: a byte stored at LEN and counted stands at the end of the frame under construction. -/
theorem partialFrame_of_write {s t : State} {b : Byte} (hwf : s.buf.wf = true) (hbuf : t.buf = s.buf.write s.len b)
    (hlen : t.len = s.len + 1) : partialFrame t = partialFrame s ++ [b] := by
  have hold : (List.range s.len).map (s.buf.write s.len b).read = partialFrame s :=
    List.map_congr_left fun j hj => Memory.read_write_other b (List.mem_range.mp hj).ne s.buf
  rw [partialFrame, hlen, hbuf, List.range_succ, List.map_append, hold, List.map_singleton,
    Memory.read_write_same s.len b hwf]

/-- From the running state `s` the bytes `bs` have been fed, and `t` is what they lead to (R22, R26): it runs, within its
bounds, and holds as many of the first bytes as fit. -/
structure Collects (s : State) (bs : List Byte) (t : State) : Prop where
  running : t.halt = false
  bounded : Bounded t
  cap : t.frameCap = s.frameCap
  held : partialFrame t = (partialFrame s ++ bs).take s.frameCap

/-- No byte fed: LEN and the buffer stay. -/
theorem collects_nil {s t : State} (hrun : t.halt = false) (hb : Bounded t) (hcap : t.frameCap = s.frameCap)
    (hlen : t.len = s.len) (hbuf : t.buf = s.buf) : Collects s [] t where
  running := hrun
  bounded := hb
  cap := hcap
  held := by
    have hfits : (partialFrame s).length ≤ s.frameCap := by
      rw [partialFrame_length, ← hlen, ← hcap]; exact hb.len
    rw [List.append_nil, List.take_of_length_le hfits, partialFrame_congr hlen hbuf]

theorem Collects.trans {s t u : State} {bs cs : List Byte} (hst : Collects s bs t) (htu : Collects t cs u) :
    Collects s (bs ++ cs) u where
  running := htu.running
  bounded := htu.bounded
  cap := htu.cap.trans hst.cap
  held := by
    rw [htu.held, hst.held, hst.cap, ← List.append_assoc, List.take_append, List.take_append (i := s.frameCap) (l₂ := cs),
      List.take_take, min_self, List.length_take]
    congr 2
    omega

/-- ACC (R90): the byte is held if it fits. -/
theorem exec_acc_collects {s : State} (b : Byte) (hrun : s.halt = false) (hb : Bounded s) :
    ∃ t, exec (.acc b) s = .next t ∧ t.out = none ∧ Collects s [b] t := by
  rcases Nat.lt_or_ge s.len s.frameCap with hl | hl
  · have ht := exec_acc_stored b hrun hl
    refine ⟨_, ht, rfl, hrun, exec_keeps_bounded hb ht, rfl, ?_⟩
    have hstored : partialFrame (quiet (setLen (s.len + 1) (putByte s.len b s))) = partialFrame s ++ [b] :=
      partialFrame_of_write hb.canonical rfl (setLen_succ_len (s := putByte s.len b s) hl)
    rw [hstored, List.take_of_length_le (by simpa using hl)]
  · have ht := exec_acc_dropped b hrun hl
    refine ⟨_, ht, rfl, hrun, exec_keeps_bounded hb ht, rfl, ?_⟩
    have hfull : (partialFrame s).length = s.frameCap := by
      rw [partialFrame_length]; exact le_antisymm hb.len hl
    exact (partialFrame_congr rfl rfl).trans (List.take_left' hfull).symm

/-- NODATA (R96): no byte is fed. -/
theorem exec_nodata_collects {s : State} (hrun : s.halt = false) (hb : Bounded s) :
    ∃ t, exec .nodata s = .next t ∧ t.out = none ∧ Collects s [] t :=
  have ht := exec_nodata s
  ⟨_, ht, rfl, collects_nil hrun (exec_keeps_bounded hb ht) rfl rfl rfl⟩

/-- CFGWR (R176, R178): no byte is fed. -/
theorem exec_cfgwr_collects {s : State} (a : CfgAddr) (v : Freq) (hrun : s.halt = false) (hb : Bounded s) :
    ∃ t, exec (.cfgwr a v) s = .next t ∧ t.out = none ∧ Collects s [] t :=
  have ht := exec_cfgwr a v hrun
  ⟨_, ht, rfl, collects_nil (by simpa) (exec_keeps_bounded hb ht) (by simp) (by simp) (by simp)⟩

/-- An instruction that emits nothing adds no record to a run (R168). -/
theorem run_cons_of_silent {i : Instr} {is : List Instr} {s t : State} (ht : exec i s = .next t) (hout : t.out = none) :
    run (i :: is) s = run is t := by
  rw [run, ht, andThen_next, hout]
  cases run is t <;> rfl

/-- An event that collects, before a run that does. -/
theorem run_cons_collects {i : Instr} {is : List Instr} {bs cs : List Byte} {s t : State} (ht : exec i s = .next t)
    (hout : t.out = none) (hst : Collects s bs t) (hrest : ∃ u, run is t = .next ([], u) ∧ Collects t cs u) :
    ∃ u, run (i :: is) s = .next ([], u) ∧ Collects s (bs ++ cs) u := by
  obtain ⟨u, hu, htu⟩ := hrest
  exact ⟨u, (run_cons_of_silent ht hout).trans hu, hst.trans htu⟩

/-- The events of `bytesFed`, one after another, emit nothing and collect the bytes they feed. -/
theorem run_collects {is : List Instr} {bs : List Byte} {s : State} (hf : bytesFed is = some bs) (hrun : s.halt = false)
    (hb : Bounded s) : ∃ u, run is s = .next ([], u) ∧ Collects s bs u := by
  fun_induction bytesFed is generalizing bs s with
  | case1 =>
    obtain rfl := Option.some.inj hf
    exact ⟨s, rfl, collects_nil hrun hb rfl rfl rfl⟩
  | case2 b js ih =>
    obtain ⟨cs, hcs, rfl⟩ := Option.map_eq_some_iff.mp hf
    obtain ⟨t, ht, hout, hc⟩ := exec_acc_collects b hrun hb
    exact run_cons_collects ht hout hc (ih hcs hc.running hc.bounded)
  | case3 js ih =>
    obtain ⟨t, ht, hout, hc⟩ := exec_nodata_collects hrun hb
    exact run_cons_collects ht hout hc (ih hf hc.running hc.bounded)
  | case4 a v js ih =>
    obtain ⟨t, ht, hout, hc⟩ := exec_cfgwr_collects a v hrun hb
    exact run_cons_collects ht hout hc (ih hf hc.running hc.bounded)
  | case5 => exact nomatch hf

/-- Settles O42, by the induction of `run_collects` from the empty frame; LEN is the number of bytes held. -/
theorem bufferHoldsTheFirstBytesFed : Obligations.BufferHoldsTheFirstBytesFed := by
  intro s is bs hs hrun hlen hf
  obtain ⟨u, hu, hc⟩ := run_collects hf hrun ((wf_iff_bounded_unterminated s).mp hs).1
  have hempty : partialFrame s = [] := List.length_eq_zero_iff.mp ((partialFrame_length s).trans hlen)
  have hheld : partialFrame u = bs.take s.frameCap := by rw [hc.held, hempty, List.nil_append]
  refine ⟨u, hu, hc.running, ?_, hheld⟩
  rw [← partialFrame_length, hheld, List.length_take, min_comm]

/-! ### The reset state -/

/-- Settles O1: the table of R25 is that of the configuration. -/
theorem resetStateHoldsTheDocumentsTable : Obligations.ResetStateHoldsTheDocumentsTable :=
  ⟨reset_halt, reset_len, by rw [reset_bndLo]; rfl, by rw [reset_bndHi]; rfl⟩

/-- Settles O2: FRAME_CAP is the least one allowed, and nothing is held. -/
theorem resetStateIsWellFormed : Obligations.ResetStateIsWellFormed :=
  (State.wf_iff State.reset).mpr
    ⟨le_rfl, Nat.zero_le _, reset_memory_wf, rfl, fun j hj => absurd (reset_len ▸ hj) (Nat.not_lt_zero j)⟩

end Sys2Proof.Machine
end

section
/-!
PROOFS, family `20_memory.md`: repeating a system event (R47). Each of NODATA, RST, RDERR and CFGWR leads to a state at which
the same event answers that very state, with nothing output.
-/

namespace Sys2Proof.Machine

theorem sameMachine_quiet (s : State) : SameMachine s (quiet s) := ⟨rfl, rfl, rfl, rfl, rfl, rfl, rfl⟩

theorem silent_quiet (s : State) : Silent (quiet s) := ⟨quiet_out s, quiet_stage s⟩

/-- R175: what a reset sets it sets to constants, and it outputs nothing. -/
theorem resetBlock_resetBlock (s : State) : resetBlock (resetBlock s) = quiet (resetBlock s) := rfl

theorem quiet_eq_withPorts (s : State) : quiet s = withPorts ⟨s.input, none, none⟩ s := rfl

theorem writeBoundary_quiet (a : CfgAddr) (v : Freq) (s : State) :
    writeBoundary a v (quiet s) = quiet (writeBoundary a v s) := by
  rw [quiet_eq_withPorts, writeBoundary_withPorts, quiet_eq_withPorts, writeBoundary_input]

/-- R176, R177: which register is written depends on the address alone, and a second write of the same value leaves it. -/
theorem writeBoundary_writeBoundary (a : CfgAddr) (v : Freq) (s : State) :
    writeBoundary a v (writeBoundary a v s) = writeBoundary a v s := by
  unfold writeBoundary
  split_ifs
  · rw [setBounds_bndLo, Vector.setIfInBounds_setIfInBounds]; rfl
  · rw [setBounds_bndHi, Vector.setIfInBounds_setIfInBounds]; rfl
  · rfl

/-- R24, R95: no event but RST leaves the halted state. -/
theorem exec_keeps_halted {i : Instr} {s t : State} (h : exec i s = .next t) (hs : s.halt = true)
    (he : isEvent i = true) (hi : i ≠ .rst) : t.halt = true := by
  obtain rfl := Host.Outcome.next.inj (h.symm.trans (exec_halted hs he hi))
  exact hs

/-- R94, R95: whether the block was running or halted already, RDERR leaves it halted. -/
theorem exec_rderr_halt {s t : State} (h : exec .rderr s = .next t) : t.halt = true := by
  cases hs : s.halt with
  | false =>
    obtain rfl := Host.Outcome.next.inj (h.symm.trans (exec_rderr hs))
    exact takeStreamError_halt s
  | true => exact exec_keeps_halted h hs rfl nofun

theorem exec_rst_again {s t : State} (h : exec .rst s = .next t) : exec .rst t = .next (quiet t) := by
  obtain rfl : resetBlock s = t := Host.Outcome.next.inj h
  exact congrArg Host.Outcome.next (resetBlock_resetBlock s)

theorem exec_rderr_again {s t : State} (h : exec .rderr s = .next t) : exec .rderr t = .next (quiet t) :=
  exec_halted (exec_rderr_halt h) rfl nofun

theorem exec_cfgwr_again {a : CfgAddr} {v : Freq} {s t : State} (h : exec (.cfgwr a v) s = .next t) :
    exec (.cfgwr a v) t = .next (quiet t) := by
  cases hs : s.halt with
  | false =>
    obtain rfl := Host.Outcome.next.inj (h.symm.trans (exec_cfgwr a v hs))
    have hrun : (quiet (writeBoundary a v s)).halt = false := by rwa [quiet_halt, writeBoundary_halt]
    rw [exec_cfgwr a v hrun, writeBoundary_quiet, writeBoundary_writeBoundary]
  | true => exact exec_halted (exec_keeps_halted h hs rfl nofun) rfl nofun

/-- Settles O21: the repeated event answers the state it is given, with the outputs cleared. -/
theorem repeatedSystemEventsAreIdempotent : Obligations.RepeatedSystemEventsAreIdempotent := by
  intro i s t hi h
  have again : exec i t = .next (quiet t) := by
    rcases hi with rfl | rfl | rfl | ⟨a, v, rfl⟩
    · exact exec_nodata t
    · exact exec_rst_again h
    · exact exec_rderr_again h
    · exact exec_cfgwr_again h
  exact ⟨quiet t, again, sameMachine_quiet t, silent_quiet t⟩

end Sys2Proof.Machine
end

section
/-!
PROOFS, family `30_encoding.md`: the presented words and the operations they stand for. The vectors of the two ports come
first (R61, R62), then the completed frames and their classes (R63), the operand of BCDDEC (R66) and the rows of the code
table (R75); the round trip and the soundness of the decoder are put together from these. After them, what the stages
answer when they are evaluated alone.
-/

namespace Sys2Proof.Machine

/-! ### The stream vector, by its bits (R61) -/

/-- The comparison of a table row's mask and match, bit by bit. -/
theorem streamWord_and_eq_iff (e m v : StreamWord) :
    e &&& m = v ↔ ∀ k < 11, (e.getLsbD k && m.getLsbD k) = v.getLsbD k := by
  simp only [BitVec.eq_of_getLsbD_eq_iff, BitVec.getLsbD_and]

theorem rst_mask_iff (e : StreamWord) : e &&& 0x400#11 = 0x400#11 ↔ e.getLsbD 10 = true := by
  simp only [streamWord_and_eq_iff, Nat.forall_lt_succ_right]
  simp

theorem rderr_mask_iff (e : StreamWord) :
    e &&& 0x600#11 = 0x200#11 ↔ e.getLsbD 10 = false ∧ e.getLsbD 9 = true := by
  simp only [streamWord_and_eq_iff, Nat.forall_lt_succ_right]
  simp [and_comm]

theorem byte_mask_iff (e : StreamWord) :
    e &&& 0x700#11 = 0x100#11 ↔ e.getLsbD 10 = false ∧ e.getLsbD 9 = false ∧ e.getLsbD 8 = true := by
  simp only [streamWord_and_eq_iff, Nat.forall_lt_succ_right]
  simp [and_comm]

theorem byteVector_data (b : Byte) : (byteVector b).extractLsb' 0 8 = b := BitVec.extractLsb'_append_eq_right

theorem byteVector_inj {b c : Byte} : byteVector b = byteVector c ↔ b = c := BitVec.append_right_inj _

theorem byteVector_control (b : Byte) :
    (byteVector b).getLsbD 10 = false ∧ (byteVector b).getLsbD 9 = false ∧ (byteVector b).getLsbD 8 = true := by
  simp only [byteVector, BitVec.getLsbD_append]
  exact ⟨rfl, rfl, rfl⟩

/-- A vector whose control bits say that a byte is presented is the vector of its data byte. -/
theorem eq_byteVector {e : StreamWord} (h10 : e.getLsbD 10 = false) (h9 : e.getLsbD 9 = false)
    (h8 : e.getLsbD 8 = true) : e = byteVector (e.extractLsb' 0 8) := by
  have hcontrol : e.extractLsb' 8 3 = 0b001#3 := by
    simp only [BitVec.eq_of_getLsbD_eq_iff, Nat.forall_lt_succ_right, BitVec.getLsbD_extractLsb']
    simp_all
  calc e = e.extractLsb' 8 3 ++ e.extractLsb' 0 8 := (BitVec.extractLsb'_append_extractLsb' (w := 3) (len := 8)).symm
    _ = byteVector (e.extractLsb' 0 8) := by rw [hcontrol]; rfl

/-! ### The event of a stream vector (R61): one rule per row of its table -/

theorem decodeEvent_rst {e : StreamWord} (h10 : e.getLsbD 10 = true) : decodeEvent e = .rst :=
  if_pos ((rst_mask_iff e).mpr h10)

theorem decodeEvent_rderr {e : StreamWord} (h10 : e.getLsbD 10 = false) (h9 : e.getLsbD 9 = true) :
    decodeEvent e = .rderr := by
  simp only [decodeEvent, rst_mask_iff, rderr_mask_iff, h10, h9, reduceCtorEq, and_self, if_true, if_false]

/-- Of the vectors that present a byte, TERM's is the one of the terminator and the others are ACC's. -/
theorem decodeEvent_byteVector (b : Byte) : decodeEvent (byteVector b) = byteEvent b := by
  obtain ⟨h10, h9, h8⟩ := byteVector_control b
  have hdata : (byteVector b).setWidth 8 = b :=
    (BitVec.setWidth_eq_extractLsb' (by omega)).trans (byteVector_data b)
  simp only [decodeEvent, rst_mask_iff, rderr_mask_iff, byteVector_inj, byte_mask_iff, h10, h9, h8, hdata, reduceCtorEq,
    and_self, and_false, if_true, if_false, byteEvent]

theorem decodeEvent_nodata {e : StreamWord} (h10 : e.getLsbD 10 = false) (h9 : e.getLsbD 9 = false)
    (h8 : e.getLsbD 8 = false) : decodeEvent e = .nodata := by
  have hterm : e ≠ byteVector Config.termByte := by
    rintro rfl
    obtain ⟨-, -, hset⟩ := byteVector_control Config.termByte
    exact nomatch h8.symm.trans hset
  simp only [decodeEvent, rst_mask_iff, rderr_mask_iff, hterm, byte_mask_iff, h10, h9, h8, reduceCtorEq, and_false,
    if_false]

theorem decodeEvent_of_byte {e : StreamWord} (h10 : e.getLsbD 10 = false) (h9 : e.getLsbD 9 = false)
    (h8 : e.getLsbD 8 = true) : decodeEvent e = byteEvent (e.extractLsb' 0 8) :=
  (congrArg decodeEvent (eq_byteVector h10 h9 h8)).trans (decodeEvent_byteVector _)

/-- The rows cover every stream vector. -/
theorem decodeEvent_cases (e : StreamWord) :
    decodeEvent e = .rst ∨ decodeEvent e = .rderr ∨ (∃ b, decodeEvent e = byteEvent b) ∨ decodeEvent e = .nodata := by
  cases h10 : e.getLsbD 10 with
  | true => exact .inl (decodeEvent_rst h10)
  | false =>
    cases h9 : e.getLsbD 9 with
    | true => exact .inr (.inl (decodeEvent_rderr h10 h9))
    | false =>
      cases h8 : e.getLsbD 8 with
      | true => exact .inr (.inr (.inl ⟨_, decodeEvent_of_byte h10 h9 h8⟩))
      | false => exact .inr (.inr (.inr (decodeEvent_nodata h10 h9 h8)))

theorem byteEvent_ne_cfgwr (b : Byte) (a : CfgAddr) (v : Freq) : byteEvent b ≠ .cfgwr a v := by
  unfold byteEvent
  split_ifs <;> exact nofun

/-- The stream port gives no configuration event. -/
theorem decodeEvent_ne_cfgwr (e : StreamWord) (a : CfgAddr) (v : Freq) : decodeEvent e ≠ .cfgwr a v := by
  rcases decodeEvent_cases e with h | h | ⟨b, h⟩ | h <;> rw [h]
  · exact nofun
  · exact nofun
  · exact byteEvent_ne_cfgwr b a v
  · exact nofun

theorem byteEvent_wf (b : Byte) : (byteEvent b).wf = true := by
  unfold byteEvent
  split_ifs with hb
  · rfl
  · exact bne_iff_ne.mpr hb

theorem decodeEvent_wf (e : StreamWord) : (decodeEvent e).wf = true := by
  rcases decodeEvent_cases e with h | h | ⟨b, h⟩ | h <;> rw [h]
  · rfl
  · rfl
  · exact byteEvent_wf b
  · rfl

/-! ### The sampling instant (R62) -/

theorem decode_instant_rst {e : StreamWord} (g : ConfigWord) (h10 : e.getLsbD 10 = true) :
    decode (.instant e g) = .ok .rst :=
  congrArg Except.ok (if_pos h10)

theorem decode_instant_cfgwr {e : StreamWord} {g : ConfigWord} (h10 : e.getLsbD 10 = false) (hg : g.getLsbD 39 = true) :
    decode (.instant e g) = .ok (decodeConfig g) := by
  simp only [decode, decodeInstant, rstBit, cfgWe, h10, hg, Bool.false_eq_true, if_true, if_false]

/-- With no configuration write the instant is its stream event, which is RST itself where `rst` is 1. -/
theorem decode_instant_stream {e : StreamWord} {g : ConfigWord} (hg : g.getLsbD 39 = false) :
    decode (.instant e g) = .ok (decodeEvent e) := by
  cases h10 : e.getLsbD 10 with
  | true => rw [decode_instant_rst g h10, decodeEvent_rst h10]
  | false => simp only [decode, decodeInstant, rstBit, cfgWe, h10, hg, Bool.false_eq_true, if_false]

theorem restOfWord_instant_discarded {e : StreamWord} {g : ConfigWord}
    (h : e.getLsbD 10 = true ∨ g.getLsbD 39 = false) :
    restOfWord (.instant e g) = [] := by
  refine if_neg ?_
  rcases h with h10 | hg
  · simp only [rstBit, h10, Bool.not_true, Bool.false_and, Bool.false_eq_true, not_false_eq_true]
  · simp only [cfgWe, hg, Bool.and_false, Bool.false_eq_true, not_false_eq_true]

theorem restOfWord_instant_write {e : StreamWord} {g : ConfigWord} (h10 : e.getLsbD 10 = false)
    (hg : g.getLsbD 39 = true) :
    restOfWord (.instant e g) = [.instant e 0#40] := by
  refine if_pos ?_
  simp only [rstBit, cfgWe, h10, hg, Bool.not_false, Bool.and_self]

theorem configWord_we (a : CfgAddr) (v : Freq) : (1#1 ++ a ++ v).getLsbD 39 = true := by
  simp only [BitVec.getLsbD_append]
  rfl

/-- The address and the data that a configuration vector carries. -/
theorem decodeConfig_configWord (a : CfgAddr) (v : Freq) : decodeConfig (1#1 ++ a ++ v) = .cfgwr a v := by
  have haddr : (1#1 ++ a ++ v).extractLsb' 34 5 = a := by
    rw [BitVec.extractLsb'_append_eq_of_le le_rfl]
    exact BitVec.extractLsb'_append_eq_right
  have hdata : (1#1 ++ a ++ v).extractLsb' 0 34 = v := BitVec.extractLsb'_append_eq_right
  exact congr (congrArg Instr.cfgwr haddr) hdata

/-- Settles O52: each clause is the rule of one row; TERM and ACC are the two byte events. -/
theorem streamVectorSelectsTheEvent : Obligations.StreamVectorSelectsTheEvent := by
  intro e g hg
  rw [decode_instant_stream hg]
  refine ⟨fun h10 => ?_, fun h10 h9 => ?_, fun h10 h9 h8 hb => ?_, fun h10 h9 h8 hb => ?_, fun h10 h9 h8 => ?_⟩
  · rw [decodeEvent_rst h10]
  · rw [decodeEvent_rderr h10 h9]
  · rw [decodeEvent_of_byte h10 h9 h8]
    exact congrArg Except.ok (if_pos hb)
  · rw [decodeEvent_of_byte h10 h9 h8]
    exact congrArg Except.ok (if_neg hb)
  · rw [decodeEvent_nodata h10 h9 h8]

/-- Settles O53: the write comes first unless `rst` discards it, and the stream port alone gives no CFGWR. -/
theorem configurationComesBeforeTheStreamEvent : Obligations.ConfigurationComesBeforeTheStreamEvent := by
  refine ⟨fun e a v => ⟨fun h10 => ⟨?_, ?_⟩, fun h10 => ⟨?_, 0#40, ?_, rfl⟩⟩, fun e g hg => ⟨?_, fun a v => ?_⟩⟩
  · exact decode_instant_rst _ h10
  · exact restOfWord_instant_discarded (.inl h10)
  · rw [decode_instant_cfgwr h10 (configWord_we a v), decodeConfig_configWord]
  · exact restOfWord_instant_write h10 (configWord_we a v)
  · exact restOfWord_instant_discarded (.inr hg)
  · rw [decode_instant_stream hg]
    exact fun h => decodeEvent_ne_cfgwr e a v (Except.ok.inj h)

/-! ### Completed frames and their classes (R63, R64) -/

/-- The last byte is the terminator and the bytes before it are not. -/
theorem endsAtFirstTerminator_concat (bs : List Byte) (b : Byte) :
    endsAtFirstTerminator (bs ++ [b]) = (noTerminator bs && b == Config.termByte) := by
  induction bs with
  | nil => rfl
  | cons c cs ih =>
    have hcons : endsAtFirstTerminator (c :: (cs ++ [b]))
        = (c != Config.termByte && endsAtFirstTerminator (cs ++ [b])) := by
      cases cs <;> rfl
    rw [List.cons_append, hcons, ih, ← Bool.and_assoc]
    rfl

/-- The two kinds of completed frame (R91, R93): one that fits, and an overlong one. -/
theorem frame_wf_iff (f : Frame) :
    f.wf = true ↔
      (∃ bs, f = ⟨bs, bs.length, false⟩ ∧ endsAtFirstTerminator bs = true) ∨
      (∃ bs, f = ⟨bs, bs.length + 1, true⟩ ∧ Config.minFrameCap ≤ bs.length ∧ noTerminator bs = true) := by
  obtain ⟨bs, n, o⟩ := f
  cases o <;> simp [Frame.wf, and_comm, and_assoc]

/-- A completed frame is read back from its bytes. -/
theorem decodeFrame_of_wf {f : Frame} (h : f.wf = true) : decodeFrame f.overlong f.bytes = .ok f := by
  rcases (frame_wf_iff f).mp h with ⟨bs, rfl, hends⟩ | ⟨bs, rfl, hcap, hno⟩
  · exact if_pos hends
  · simp only [decodeFrame, Nat.not_lt.mpr hcap, hno, if_true, if_false]

/-- Whatever bytes are read as a frame, it is one that a TERM step can complete. -/
theorem wf_of_decodeFrame {o : Bool} {bs : List Byte} {f : Frame} (h : decodeFrame o bs = .ok f) : f.wf = true := by
  rw [frame_wf_iff]
  unfold decodeFrame at h
  split_ifs at h with ho hcap hno hends
  · obtain rfl := Except.ok.inj h
    exact .inr ⟨bs, rfl, Nat.not_lt.mp hcap, hno⟩
  · obtain rfl := Except.ok.inj h
    exact .inl ⟨bs, rfl, hends⟩

/-- The terminator of a frequency message is its first exactly when no field byte is one (R60). -/
theorem freqMsgFrame_wf_iff (h0 h1 h4 fq0 fq1 fq2 fq3 fq4 : Byte) :
    (freqMsgFrame h0 h1 [h4] fq0 fq1 fq2 fq3 fq4).wf = true ↔
      noTerminator [h0, h1, h4, fq0, fq1, fq2, fq3, fq4] = true := by
  have hends := endsAtFirstTerminator_concat [h0, h1, 0x00#8, 0x94#8, h4, fq0, fq1, fq2, fq3, fq4] Config.termByte
  calc (freqMsgFrame h0 h1 [h4] fq0 fq1 fq2 fq3 fq4).wf = true
      ↔ endsAtFirstTerminator ([h0, h1, 0x00#8, 0x94#8, h4, fq0, fq1, fq2, fq3, fq4] ++ [Config.termByte]) = true :=
        Iff.rfl
    _ ↔ _ := by
      rw [hends]
      simp [noTerminator, Config.termByte]

/-- A completed frame of the class FREQMSG is the frame of eight field bytes (R48, R63). -/
theorem eq_freqMsgFrame_of_isFreqMsg {f : Frame} (hwf : f.wf = true) (h : f.isFreqMsg = true) :
    ∃ h0 h1 h4 fq0 fq1 fq2 fq3 fq4, f = freqMsgFrame h0 h1 [h4] fq0 fq1 fq2 fq3 fq4 := by
  simp only [Frame.isFreqMsg, Bool.and_eq_true, Bool.not_eq_true', decide_eq_true_eq, beq_iff_eq] at h
  obtain ⟨⟨⟨⟨hover, hlen⟩, hid2⟩, hid3⟩, hterm⟩ := h
  rcases (frame_wf_iff f).mp hwf with ⟨bs, rfl, -⟩ | ⟨bs, rfl, -, -⟩
  · match bs, hlen with
    | [h0, h1, i2, i3, h4, fq0, fq1, fq2, fq3, fq4, last], _ =>
      obtain rfl := Option.some.inj hid2
      obtain rfl := Option.some.inj hid3
      obtain rfl := Option.some.inj hterm
      exact ⟨h0, h1, h4, fq0, fq1, fq2, fq3, fq4, rfl⟩
  · exact nomatch hover

theorem classifyFrame_freqMsgFrame (h0 h1 h4 fq0 fq1 fq2 fq3 fq4 : Byte) :
    classifyFrame (freqMsgFrame h0 h1 [h4] fq0 fq1 fq2 fq3 fq4) = .freqmsg h0 h1 [h4] fq0 fq1 fq2 fq3 fq4 :=
  classifyFrame_freqMsg h0 h1 h4 fq0 fq1 fq2 fq3 fq4

/-- R63: both classes of a completed frame are operations of the table. -/
theorem classifyFrame_wf {f : Frame} (hwf : f.wf = true) : (classifyFrame f).wf = true := by
  cases h : f.isFreqMsg with
  | true =>
    obtain ⟨h0, h1, h4, fq0, fq1, fq2, fq3, fq4, rfl⟩ := eq_freqMsgFrame_of_isFreqMsg hwf h
    rw [classifyFrame_freqMsgFrame, freqmsg_wf_iff]
    exact ⟨h4, rfl, (freqMsgFrame_wf_iff h0 h1 h4 fq0 fq1 fq2 fq3 fq4).mp hwf⟩
  | false => simp [classifyFrame, Instr.wf, h, hwf]

/-! ### The operand of BCDDEC (R66) -/

/-- Each lane of the operand word is the byte that was packed into it. -/
theorem operandByte_packOperand (fq0 fq1 fq2 fq3 fq4 : Byte) :
    operandByte (packOperand fq0 fq1 fq2 fq3 fq4) 0 = fq0 ∧ operandByte (packOperand fq0 fq1 fq2 fq3 fq4) 1 = fq1 ∧
    operandByte (packOperand fq0 fq1 fq2 fq3 fq4) 2 = fq2 ∧ operandByte (packOperand fq0 fq1 fq2 fq3 fq4) 3 = fq3 ∧
    operandByte (packOperand fq0 fq1 fq2 fq3 fq4) 4 = fq4 := by
  have hlane (k : Nat) : (operandByte (packOperand fq0 fq1 fq2 fq3 fq4) k).toNat
      = (packOperand fq0 fq1 fq2 fq3 fq4).toNat / 2 ^ (8 * k) % 256 := by
    rw [operandByte, BitVec.extractLsb'_toNat, Nat.shiftRight_eq_div_pow]
  refine ⟨?_, ?_, ?_, ?_, ?_⟩ <;>
  · apply BitVec.eq_of_toNat_eq
    rw [hlane, packOperand_toNat]
    omega

/-! ### The rows of the code table (R75, R150, R152) -/

theorem knownBand_iff (b : Band) : knownBand b = true ↔ ∃ r : Row, b = rowBand r := by
  simp only [knownBand, Config.bandCodes, List.any_map, List.any_eq_true, List.mem_finRange, true_and,
    Function.comp_apply, beq_iff_eq, eq_comm (a := b)]
  rfl

/-- A band value of no row is the default row's. -/
theorem decodeBand_unknown {b : Band} (h : knownBand b = false) : decodeBand b = .bandencUnknown b := by
  have hne (n : Nat) (hn : n < 11) : b ≠ Config.rowBands[n] :=
    fun hb => nomatch h.symm.trans ((knownBand_iff b).mpr ⟨⟨n, hn⟩, hb⟩)
  simp only [decodeBand, hne, if_false]

theorem decodeBand_wf (b : Band) : (decodeBand b).wf = true := by
  cases h : knownBand b with
  | true =>
    obtain ⟨r, rfl⟩ := (knownBand_iff b).mp h
    fin_cases r <;> rfl
  | false =>
    rw [decodeBand_unknown h, Instr.wf, h]
    rfl

theorem decodeRange_wf (r : Row) (f : Freq) : (decodeRange r f).wf = true := by
  fin_cases r <;> rfl

/-! ### Decoder and encoder agree -/

/-- A bench word that presents a well-formed frame decodes to its operation on that frame. -/
theorem decodeFrame_map_of_wf {f : Frame} (h : f.wf = true) (k : Frame → Instr) :
    (decodeFrame f.overlong f.bytes).map k = .ok (k f) := by
  rw [decodeFrame_of_wf h]
  rfl

/-- Settles O54: the stream and configuration vectors by their fields, the frame words by `decodeFrame_of_wf`, the other
words by the row they select. -/
theorem decodeOfEncodeIsTheInstruction : Obligations.DecodeOfEncodeIsTheInstruction := by
  intro i hwf
  cases i with
  | acc b =>
    have hb : b ≠ Config.termByte := bne_iff_ne.mp hwf
    exact (decode_instant_stream rfl).trans (congrArg Except.ok ((decodeEvent_byteVector b).trans (if_neg hb)))
  | cfgwr a v =>
    exact (decode_instant_cfgwr rfl (configWord_we a v)).trans (congrArg Except.ok (decodeConfig_configWord a v))
  | freqmsg h0 h1 h4s fq0 fq1 fq2 fq3 fq4 =>
    obtain ⟨h4, rfl, hno⟩ := (freqmsg_wf_iff h0 h1 h4s fq0 fq1 fq2 fq3 fq4).mp hwf
    have hframe := (freqMsgFrame_wf_iff h0 h1 h4 fq0 fq1 fq2 fq3 fq4).mpr hno
    exact (decodeFrame_map_of_wf hframe classifyFrame).trans
      (congrArg Except.ok (classifyFrame_freqMsgFrame h0 h1 h4 fq0 fq1 fq2 fq3 fq4))
  | other f =>
    simp only [Instr.wf, Bool.and_eq_true, Bool.not_eq_true'] at hwf
    obtain ⟨hframe, hclass⟩ := hwf
    exact (decodeFrame_map_of_wf hframe classifyFrame).trans (by simp [classifyFrame, hclass])
  | filter f => exact decodeFrame_map_of_wf hwf Instr.filter
  | pipe f => exact decodeFrame_map_of_wf hwf Instr.pipe
  | bcddec fq0 fq1 fq2 fq3 fq4 =>
    obtain ⟨hlane0, hlane1, hlane2, hlane3, hlane4⟩ := operandByte_packOperand fq0 fq1 fq2 fq3 fq4
    simp only [encode, decode, hlane0, hlane1, hlane2, hlane3, hlane4]
  | bandencUnknown b =>
    have hb : knownBand b = false := by simpa [Instr.wf] using hwf
    exact congrArg Except.ok (decodeBand_unknown hb)
  | _ => rfl

theorem decodeInstant_wf (e : StreamWord) (g : ConfigWord) : (decodeInstant e g).wf = true := by
  unfold decodeInstant
  split_ifs
  · rfl
  · rfl
  · exact decodeEvent_wf e

theorem wf_of_decodeFrame_map {o : Bool} {bs : List Byte} {k : Frame → Instr} {i : Instr}
    (hk : ∀ f : Frame, f.wf = true → (k f).wf = true) (h : (decodeFrame o bs).map k = .ok i) : i.wf = true := by
  cases hf : decodeFrame o bs with
  | error e => rw [hf] at h; exact nomatch h
  | ok f =>
    rw [hf] at h
    obtain rfl := Except.ok.inj h
    exact hk f (wf_of_decodeFrame hf)

/-- Settles O55, by the kind of word: the frame words give well-formed frames, and the others a row of the table. -/
theorem decodedInstructionsAreWellFormed : Obligations.DecodedInstructionsAreWellFormed := by
  refine ⟨fun w i h => ?_, fun e g => ⟨_, rfl⟩⟩
  cases w with
  | instant e g => obtain rfl := Except.ok.inj h; exact decodeInstant_wf e g
  | frame o bs => exact wf_of_decodeFrame_map (k := classifyFrame) (fun f hf => classifyFrame_wf hf) h
  | filter o bs => exact wf_of_decodeFrame_map (k := .filter) (fun f hf => hf) h
  | bcddec w => obtain rfl := Except.ok.inj h; rfl
  | bandmap f => obtain rfl := Except.ok.inj h; rfl
  | bandenc b => obtain rfl := Except.ok.inj h; rfl
  | pipe o bs => exact wf_of_decodeFrame_map (k := .pipe) (fun f hf => hf) h
  | range r f => obtain rfl := Except.ok.inj h; exact decodeRange_wf r f
  | band b => obtain rfl := Except.ok.inj h; exact decodeBand_wf b
  | noFormat n v => exact nomatch h

/-- Settles O56: five clauses are rows of R61, the other three words are those of the encoder. -/
theorem writtenOutWordsDecode : Obligations.WrittenOutWordsDecode := by
  refine ⟨?_, ?_, ?_, ?_, ?_, ?_, ?_, ?_⟩
  · exact decode_instant_rst 0#40 rfl
  · exact (decode_instant_stream rfl).trans (congrArg Except.ok (decodeEvent_rderr rfl rfl))
  · exact decodeOfEncodeIsTheInstruction .term rfl
  · exact decodeOfEncodeIsTheInstruction (.acc 0xFC#8) rfl
  · exact (decode_instant_stream rfl).trans (congrArg Except.ok (decodeEvent_nodata rfl rfl rfl))
  · exact decodeOfEncodeIsTheInstruction (.cfgwr 11#5 14300000#34) rfl
  · exact decodeOfEncodeIsTheInstruction (.freqmsg 0x11#8 0x22#8 [0x33#8] 0x00#8 0x40#8 0x07#8 0x14#8 0x00#8) rfl
  · exact decodeOfEncodeIsTheInstruction (.other ⟨[0xFD#8], 1, false⟩) rfl

/-! ### The results of the stages, as what they say of a frequency -/

/-- BCDDEC's frequency is the number that ten decimal digits write; 34 bits hold it (R122 to R124). -/
theorem bcdFrequency_valid {d : Digits} (hv : ∀ j, j < 10 → (digit d j).toNat ≤ 9) :
    ∃ q, bcdFrequency d = some q ∧ q.toNat = digitSum d := by
  have hfits : digitSum d < 2 ^ 34 := lt_of_le_of_lt (digitSum_le hv) (by norm_num)
  refine ⟨_, if_pos ((digitsValid_iff d).mpr hv), ?_⟩
  rw [BitVec.toNat_ofNat, decimalValue_digitList, Nat.mod_eq_of_lt hfits]

theorem bcdFrequency_malformed {d : Digits} (h : ∃ j, j < 10 ∧ 9 < (digit d j).toNat) : bcdFrequency d = none := by
  obtain ⟨j, hj, hbig⟩ := h
  refine if_neg fun hv => ?_
  exact Nat.not_le.mpr hbig ((digitsValid_iff d).mp hv j hj)

/-- R135, R137: BANDMAP answers the first row's band. -/
theorem bandMap_of_firstRow {los his : Vector Freq 11} {f : Freq} {w : Row} (h : FirstRow los his w f) :
    bandMap los his f = some (rowBand w) := by
  obtain ⟨hin, hfirst⟩ := h
  rcases bandMap_cases los his f with ⟨r, hr, hbefore, hmap⟩ | ⟨hnone, -⟩
  · have hnot_lt : ¬ w < r := fun hlt => nomatch (hbefore w hlt).symm.trans ((rowContains_iff los his f w).mpr hin)
    have hnot_gt : ¬ r < w := fun hgt => hfirst r hgt ((rowContains_iff los his f r).mp hr)
    rw [hmap, le_antisymm (not_lt.mp hnot_lt) (not_lt.mp hnot_gt)]
  · exact nomatch (hnone w).symm.trans ((rowContains_iff los his f w).mpr hin)

theorem bandMap_of_no_row {los his : Vector Freq 11} {f : Freq} (h : ∀ w, ¬ InRow los his w f) :
    bandMap los his f = none := by
  rcases bandMap_cases los his f with ⟨r, hr, -, -⟩ | ⟨-, hmap⟩
  · exact absurd ((rowContains_iff los his f r).mp hr) (h r)
  · exact hmap

/-- Every band of the range table has a code (R150). -/
theorem bandEncode_rowBand (r : Row) : bandEncode (rowBand r) = (Config.rowCodes[r], true) := by
  fin_cases r <;> rfl

theorem rowBand_rowCode_mem (r : Row) : (rowBand r, Config.rowCodes[r]) ∈ Config.bandCodes :=
  List.mem_map.mpr ⟨r, List.mem_finRange r, rfl⟩

/-! ### The record of an accepted frame, stage by stage (R161) -/

theorem pipe_accepted {f : Frame} (los his : Vector Freq 11) (h : filterFrame f = true) :
    pipe los his f = pipeDecode los his (frameRecord f) (frequencyField f) := if_pos h

theorem pipeDecode_some {d : Digits} {q : Freq} (los his : Vector Freq 11) (r : Record) (h : bcdFrequency d = some q) :
    pipeDecode los his r d = pipeMap los his { r with accepted := some true, digits := some d } q := by
  simp only [pipeDecode, h]

theorem pipeDecode_none {d : Digits} (los his : Vector Freq 11) (r : Record) (h : bcdFrequency d = none) :
    pipeDecode los his r d = { r with accepted := some true, digits := some d, err := .malformedBcdDigits } := by
  simp only [pipeDecode, h]

theorem pipeMap_none {los his : Vector Freq 11} {q : Freq} (r : Record) (h : bandMap los his q = none) :
    pipeMap los his r q = { r with freq := some q, err := .outOfBand } := by
  simp only [pipeMap, h]

theorem pipeMap_row {los his : Vector Freq 11} {q : Freq} {w : Row} (r : Record)
    (h : bandMap los his q = some (rowBand w)) :
    pipeMap los his r q = { r with freq := some q, band := some (rowBand w), code := some Config.rowCodes[w] } := by
  simp only [pipeMap, h, pipeEncode, bandEncode_rowBand, if_true]

theorem pipeMap_freq (los his : Vector Freq 11) (r : Record) (q : Freq) : (pipeMap los his r q).freq = some q := by
  rcases bandMap_cases los his q with ⟨w, -, -, hmap⟩ | ⟨-, hmap⟩
  · rw [pipeMap_row r hmap]
  · rw [pipeMap_none r hmap]

/-- The later stages' results of an accepted frame: BCDDEC's cases, and for a frequency BANDMAP's. -/
theorem pipe_stageResults {f : Frame} (los his : Vector Freq 11) (h : filterFrame f = true) :
    StageResults los his (frequencyField f) (pipe los his f) := by
  obtain ⟨hover, -⟩ := (filterFrame_iff f).mp h
  have herr : (frameRecord f).err = .noError := if_neg (Bool.eq_false_iff.mp hover)
  rw [pipe_accepted los his h]
  refine ⟨fun hbad => ?_, fun hv => ?_⟩
  · rw [pipeDecode_none los his _ (bcdFrequency_malformed hbad)]
    exact ⟨rfl, rfl, rfl, rfl⟩
  · obtain ⟨q, hq, hval⟩ := bcdFrequency_valid hv
    rw [pipeDecode_some los his _ hq]
    refine ⟨q, pipeMap_freq los his _ q, hval, fun hno => ?_, fun w hw => ?_⟩
    · rw [pipeMap_none _ (bandMap_of_no_row hno)]
      exact ⟨rfl, rfl, rfl⟩
    · rw [pipeMap_row _ (bandMap_of_firstRow hw)]
      exact ⟨rfl, ⟨_, rowBand_rowCode_mem w, rfl⟩, herr⟩

theorem pipe_digits {f : Frame} (los his : Vector Freq 11) (h : filterFrame f = true) :
    (pipe los his f).digits = some (frequencyField f) := by
  rcases pipe_cases los his f with ⟨hrej, -⟩ | ⟨-, -, hp⟩ | ⟨q, -, -, -, hp⟩ | ⟨q, b, -, -, -, -, hp⟩ |
    ⟨q, b, -, -, -, -, hp⟩
  · exact nomatch hrej.symm.trans h
  all_goals rw [hp]

/-! ### Operations evaluated alone, and the idle step -/

theorem sameMachine_showStage (v : StageValue) (s : State) : SameMachine s (showStage v s) :=
  ⟨rfl, rfl, rfl, rfl, rfl, rfl, rfl⟩

theorem shows_showStage (v : StageValue) (s : State) : Shows (showStage v s) v :=
  ⟨showStage_out v s, showStage_stage v s⟩

theorem filterFrame_freqMsgFrame (h0 h1 h4 fq0 fq1 fq2 fq3 fq4 : Byte) :
    filterFrame (freqMsgFrame h0 h1 [h4] fq0 fq1 fq2 fq3 fq4) = true :=
  (filterFrame_iff _).mpr ⟨rfl, rfl, rfl, rfl⟩

theorem exec_freqmsg (h0 h1 : Byte) (h4 : List Byte) (fq0 fq1 fq2 fq3 fq4 : Byte) (s : State) :
    exec (.freqmsg h0 h1 h4 fq0 fq1 fq2 fq3 fq4) s
      = .next (showStage (.record (pipe s.bndLo s.bndHi (freqMsgFrame h0 h1 h4 fq0 fq1 fq2 fq3 fq4))) s) := rfl

/-- Settles O25: the record presented is PIPE's, and FILTER accepts the frame. -/
theorem freqmsgFramesAreAcceptedAndDecoded : Obligations.FreqmsgFramesAreAcceptedAndDecoded := by
  intro s h0 h1 h4 fq0 fq1 fq2 fq3 fq4
  have haccept := filterFrame_freqMsgFrame h0 h1 h4 fq0 fq1 fq2 fq3 fq4
  have hfield := frequencyField_freqMsgFrame h0 h1 h4 fq0 fq1 fq2 fq3 fq4
  have hresults := pipe_stageResults s.bndLo s.bndHi haccept
  rw [hfield] at hresults
  obtain ⟨hkind, hframe, hflen, hover, haccepted⟩ :=
    pipe_frame_fields s.bndLo s.bndHi (freqMsgFrame h0 h1 [h4] fq0 fq1 fq2 fq3 fq4)
  exact ⟨_, _, exec_freqmsg h0 h1 [h4] fq0 fq1 fq2 fq3 fq4 s, sameMachine_showStage _ s, shows_showStage _ s,
    hkind, hframe, hflen, hover, haccepted.trans (congrArg some haccept),
    (pipe_digits _ _ haccept).trans (congrArg some hfield), hresults⟩

/-- Settles O23: an operation that is no event presents a value and does nothing else. -/
theorem stageOperationsChangeNoState : Obligations.StageOperationsChangeNoState := by
  intro i s he
  obtain ⟨v, hv⟩ := exec_stage s he
  obtain ⟨hout, hstage⟩ := shows_showStage v s
  exact ⟨_, hv, sameMachine_showStage v s, hout, by rw [hstage]; rfl⟩

theorem fetch_of_idle {s : State} (h : s.input = []) : fetch s = .next (.nodata, s) := by
  rcases fetch_cases s with ⟨-, hf⟩ | ⟨w, rest, i, hs, -, -⟩ | ⟨w, rest, e, hs, -, -⟩
  · exact hf
  · exact absurd (hs.symm.trans h) (List.cons_ne_nil w rest)
  · exact absurd (hs.symm.trans h) (List.cons_ne_nil w rest)

/-- Settles O50: NODATA is selected, and its meaning is `quiet`. -/
theorem stepWithNothingPresentedIsNodata : Obligations.StepWithNothingPresentedIsNodata :=
  fun s h => ⟨quiet s, (step_of_fetch (fetch_of_idle h)).trans (exec_nodata s), sameMachine_quiet s, silent_quiet s⟩

end Sys2Proof.Machine
end

section
/-!
PROOFS, family `40_framereader.md`: what ACC, TERM and NODATA do (R90 to R93, R96), the halted state (R95), which
operations emit a record, and the framing property (R97). The frame that a TERM step hands to PIPE is named
`completedFrame`; the statements about records speak of it.
-/

namespace Sys2Proof.Machine

/-! ### NODATA and ACC -/

/-- Settles O6: the meaning of NODATA is `quiet`, running or halted. -/
theorem nodataChangesNothing : Obligations.NodataChangesNothing :=
  fun s => ⟨quiet s, exec_nodata s, sameMachine_quiet s, silent_quiet s⟩

/-- Settles O7: an ACC below FRAME_CAP is one store at LEN, and a dropped one is `quiet`. -/
theorem accStoresAtLenOrDrops : Obligations.AccStoresAtLenOrDrops := by
  intro s b hrun hwf
  rcases Nat.lt_or_ge s.len s.frameCap with hl | hl
  · refine ⟨_, exec_acc_stored b hrun hl, silent_quiet _, hrun, rfl, rfl, rfl, rfl, fun _ => ⟨?_, ?_, ?_⟩,
      fun hfull => absurd hl (Nat.not_lt.mpr hfull)⟩
    · exact setLen_succ_len (s := putByte s.len b s) hl
    · exact Memory.read_write_same s.len b hwf
    · exact fun a ha => Memory.read_write_other b ha s.buf
  · exact ⟨_, exec_acc_dropped b hrun hl, silent_quiet s, hrun, rfl, rfl, rfl, rfl,
      fun hfits => absurd hfits (Nat.not_lt.mpr hl), fun _ => ⟨rfl, fun _ => rfl⟩⟩

/-! ### TERM -/

/-- The frame that a TERM step completes while LEN is at most FRAME_CAP (R91): the bytes held with the terminator where
it fits, and otherwise the bytes held alone, overlong. -/
def completedFrame (s : State) : Frame :=
  if s.len < s.frameCap then ⟨partialFrame s ++ [Config.termByte], s.len + 1, false⟩
  else ⟨partialFrame s, s.len + 1, true⟩

theorem completedFrame_fits {s : State} (hl : s.len < s.frameCap) :
    completedFrame s = ⟨partialFrame s ++ [Config.termByte], s.len + 1, false⟩ := if_pos hl

theorem completedFrame_full {s : State} (hl : s.len = s.frameCap) :
    completedFrame s = ⟨partialFrame s, s.frameCap + 1, true⟩ := by
  rw [completedFrame, if_neg hl.not_lt, hl]

/-- R92: the reported length is LEN + 1, whether the frame fits or not. -/
theorem completedFrame_flen (s : State) : (completedFrame s).flen = s.len + 1 := by
  unfold completedFrame
  split_ifs <;> rfl

/-- TERM with a full buffer: the bytes held are the first FRAME_CAP ones. -/
theorem exec_term_full {s : State} (hrun : s.halt = false) (hl : s.len = s.frameCap) :
    exec .term s = .next (emit (pipe s.bndLo s.bndHi (completedFrame s)) (setLen 0 s)) := by
  rw [exec_term_overlong hrun hl.ge, completedFrame_full hl, partialFrame, hl]

/-- R91: TERM emits PIPE's record of the completed frame, and framing starts anew. -/
theorem exec_term_emits {s : State} (hrun : s.halt = false) (hlen : s.len ≤ s.frameCap) :
    ∃ t, exec .term s = .next t ∧ t.halt = false ∧ t.len = 0 ∧
      Emits t (pipe s.bndLo s.bndHi (completedFrame s)) := by
  rcases hlen.lt_or_eq with hl | hl
  · rw [completedFrame_fits hl]
    exact ⟨_, exec_term_fits hrun hl, hrun, setLen_zero_len _, rfl, rfl⟩
  · exact ⟨_, exec_term_full hrun hl, hrun, setLen_zero_len s, rfl, rfl⟩

/-- R93, R112: FILTER accepts no overlong frame, so no later stage runs. -/
theorem pipe_overlong (los his : Vector Freq 11) {f : Frame} (h : f.overlong = true) :
    pipe los his f = rejection f := by
  have hrej : ¬ filterFrame f = true := fun hacc => nomatch h.symm.trans ((filterFrame_iff f).mp hacc).1
  exact if_neg hrej

/-- Settles O8: TERM below FRAME_CAP is one store of the terminator at LEN, and PIPE's record of the bytes held and the
terminator. -/
theorem termCompletesAFrameThatFits : Obligations.TermCompletesAFrameThatFits := by
  intro s hrun hwf hl
  refine ⟨_, exec_term_fits hrun hl, hrun, setLen_zero_len _, rfl, rfl, rfl, rfl, ?_, ?_, rfl, rfl⟩
  · exact Memory.read_write_same s.len Config.termByte hwf
  · exact fun a ha => Memory.read_write_other Config.termByte ha s.buf

/-- Settles O9: with a full buffer nothing is stored, and PIPE rejects the overlong frame. -/
theorem termReportsAnOverlongFrame : Obligations.TermReportsAnOverlongFrame := by
  intro s hrun hl
  have hrecord : pipe s.bndLo s.bndHi (completedFrame s) = rejection ⟨partialFrame s, s.frameCap + 1, true⟩ := by
    rw [completedFrame_full hl, pipe_overlong _ _ rfl]
  exact ⟨_, exec_term_full hrun hl, hrun, setLen_zero_len s, rfl, rfl, rfl, rfl, fun _ => rfl,
    congrArg some hrecord, rfl⟩

/-- Settles O10: the record's frame fields are those of the completed frame, and FILTER tests its length. -/
theorem reportedLengthIsLenPlusOne : Obligations.ReportedLengthIsLenPlusOne := by
  intro s hwf hrun
  obtain ⟨-, hlen, -⟩ := (State.wf_iff s).mp hwf
  obtain ⟨t, ht, -, -, hemits⟩ := exec_term_emits hrun hlen
  obtain ⟨-, hframe, hflen, hover, haccepted⟩ := pipe_frame_fields s.bndLo s.bndHi (completedFrame s)
  rw [completedFrame_flen] at hflen
  refine ⟨t, _, _, ht, hemits, hframe, hflen, Nat.succ_le_succ hlen, fun hfits => ?_, fun hfull => ?_, fun hacc => ?_⟩
  · rw [hover, completedFrame_fits hfits]
    exact ⟨by simp, rfl⟩
  · have hl : s.len = s.frameCap := Nat.succ.inj hfull
    rw [hover, completedFrame_full hl]
    exact ⟨(partialFrame_length s).trans hl, rfl⟩
  · have hfilter : filterFrame (completedFrame s) = true := Option.some.inj (haccepted.symm.trans hacc)
    obtain ⟨-, h11, -⟩ := (filterFrame_iff _).mp hfilter
    exact (completedFrame_flen s).symm.trans h11

/-! ### The halted state, and which operations emit a record -/

/-- R24, R95: whatever is not RST, an operation evaluated alone among it, keeps the block halted. -/
theorem eq_rst_of_leaves_halted {i : Instr} {s t : State} (h : exec i s = .next t) (hs : s.halt = true)
    (ht : t.halt = false) : i = .rst := by
  by_contra hi
  have hkept : t.halt = true := by
    cases he : isEvent i with
    | true => exact exec_keeps_halted h hs he hi
    | false =>
      obtain ⟨v, hv⟩ := exec_stage s he
      obtain rfl := Host.Outcome.next.inj (h.symm.trans hv)
      exact hs
  exact nomatch ht.symm.trans hkept

/-- Settles O13: the gate of the halted state, and `resetBlock` for RST. -/
theorem haltedBlockIgnoresAllButRst : Obligations.HaltedBlockIgnoresAllButRst := fun s hs =>
  ⟨fun _ he hi => ⟨quiet s, exec_halted hs he hi, sameMachine_quiet s, silent_quiet s⟩,
    fun _ _ h ht => eq_rst_of_leaves_halted h hs ht, ⟨resetBlock s, rfl, resetBlock_halt s⟩⟩

/-- What an instruction can emit: nothing; as an RDERR taken while running the stream error record; as a TERM taken while
running PIPE's record of a frame. -/
theorem exec_out_cases {i : Instr} {s t : State} (h : exec i s = .next t) :
    (t.out = none ∧ ¬ (s.halt = false ∧ (i = .term ∨ i = .rderr))) ∨
    (s.halt = false ∧ i = .rderr ∧ t.out = some streamErrorRecord) ∨
    (s.halt = false ∧ i = .term ∧ ∃ f, t.out = some (pipe s.bndLo s.bndHi f)) := by
  rcases exec_cases i s with ⟨rfl, hrun⟩ | ⟨he, v, hrun⟩ | ⟨-, -, hh, hrun⟩ | ⟨rfl, -, hrun⟩ | ⟨hi, hh, hrun⟩ |
    ⟨-, a, v, rfl, hrun⟩ | ⟨-, -, b, rfl, hrun⟩ | ⟨-, -, b, rfl, hrun⟩ | ⟨hh, -, hi, hrun⟩ | ⟨hh, -, hi, hrun⟩
  all_goals obtain rfl := Host.Outcome.next.inj (h.symm.trans hrun)
  · exact .inl ⟨rfl, by simp⟩
  · refine .inl ⟨rfl, ?_⟩
    rintro ⟨-, rfl | rfl⟩ <;> exact nomatch he
  · exact .inl ⟨rfl, by simp [hh]⟩
  · exact .inl ⟨rfl, by simp⟩
  · exact .inr (.inl ⟨hh, hi, rfl⟩)
  · exact .inl ⟨rfl, by simp⟩
  · exact .inl ⟨rfl, by simp⟩
  · exact .inl ⟨rfl, by simp⟩
  · exact .inr (.inr ⟨hh, hi, _, rfl⟩)
  · exact .inr (.inr ⟨hh, hi, _, rfl⟩)

/-- Settles O18: both emitting cases of `exec_out_cases` are a TERM or an RDERR taken while running. -/
theorem recordsComeFromTermAndRderrOnly : Obligations.RecordsComeFromTermAndRderrOnly := by
  intro i s t h
  rcases exec_out_cases h with ⟨hout, hno⟩ | ⟨hh, hi, hout⟩ | ⟨hh, hi, f, hout⟩
  · simp [hout, hno]
  · simp [hout, hh, hi]
  · simp [hout, hh, hi]

/-! ### The framing property (R97) -/

/-- From the empty frame a run holds as many of the first bytes fed as fit. -/
theorem Collects.held_of_empty {s u : State} {bs : List Byte} (hc : Collects s bs u) (hlen : s.len = 0) :
    partialFrame u = bs.take s.frameCap := by
  have hempty : partialFrame s = [] := List.length_eq_zero_iff.mp ((partialFrame_length s).trans hlen)
  rw [hc.held, hempty, List.nil_append]

/-- A sequence that fits with its terminator is the completed frame, whole. -/
theorem completedFrame_of_held_fits {u : State} {bs : List Byte} (hheld : partialFrame u = bs.take u.frameCap)
    (hfits : bs.length < u.frameCap) : completedFrame u = ⟨bs ++ [Config.termByte], bs.length + 1, false⟩ := by
  rw [List.take_of_length_le hfits.le] at hheld
  have hlen : u.len = bs.length := by rw [← partialFrame_length, hheld]
  rw [completedFrame_fits (hlen ▸ hfits), hheld, hlen]

/-- A sequence that does not fit is truncated to FRAME_CAP bytes, overlong. -/
theorem completedFrame_of_held_overlong {u : State} {bs : List Byte} (hheld : partialFrame u = bs.take u.frameCap)
    (hover : u.frameCap ≤ bs.length) : completedFrame u = ⟨bs.take u.frameCap, u.frameCap + 1, true⟩ := by
  have hlen : u.len = u.frameCap := by
    rw [← partialFrame_length, hheld, List.length_take_of_le hover]
  rw [completedFrame_full hlen, hheld]

/-- Between two frames no byte is held, so nothing is asked of the bytes fed before. -/
theorem wf_of_bounded_of_empty {t : State} (hb : Bounded t) (hlen : t.len = 0) : t.wf = true :=
  (wf_iff_bounded_unterminated t).mpr ⟨hb, fun j hj => absurd (hlen ▸ hj) (Nat.not_lt_zero j)⟩

/-- Settles O43: `run_collects` leads, silently, to a state that holds the bytes fed, and TERM there emits the record of
its completed frame. -/
theorem fedSequenceIsReportedAsOneFrame : Obligations.FedSequenceIsReportedAsOneFrame := by
  intro s is bs hwf hrun hempty hfed
  obtain ⟨u, hu, hc⟩ := run_collects hfed hrun ((wf_iff_bounded_unterminated s).mp hwf).1
  obtain ⟨t, ht, hthalt, htlen, hemits⟩ := exec_term_emits hc.running hc.bounded.len
  obtain ⟨-, hframe, hflen, hover, -⟩ := pipe_frame_fields u.bndLo u.bndHi (completedFrame u)
  have hheld := hc.held_of_empty hempty
  rw [← hc.cap] at hheld ⊢
  refine ⟨u, t, _, hu, ht, hemits, htlen, hthalt, wf_of_bounded_of_empty (exec_keeps_bounded hc.bounded ht) htlen,
    fun hfits => ?_, fun hlong => ?_⟩
  · rw [hframe, hflen, hover, completedFrame_of_held_fits hheld hfits]
    exact ⟨rfl, rfl, rfl⟩
  · rw [hframe, hflen, hover, completedFrame_of_held_overlong hheld (Nat.lt_succ_iff.mp hlong)]
    exact ⟨rfl, rfl, rfl⟩

end Sys2Proof.Machine
end

section
/-!
PROOFS, family `41_filter.md`: which completed frames FILTER accepts (R110) and what becomes of the others (R112). FILTER
does not look at the terminator, which the class FREQMSG asks for; on a completed frame the two agree, because a frame
that fits ends with one.
-/

namespace Sys2Proof.Machine

/-! ### What FILTER reads of a completed frame -/

/-- Where a frame has the byte, reading it with the default for an absent index is reading it. -/
theorem frameByte_eq_iff {f : Frame} {i : Nat} (hi : i < f.bytes.length) (b : Byte) :
    frameByte f i = b ↔ f.bytes[i]? = some b := by
  simp [frameByte, fieldAt, hi]

/-- R92: the reported length of a completed frame that fits is the number of its bytes. -/
theorem flen_eq_length_of_wf {f : Frame} (hwf : f.wf = true) (hover : f.overlong = false) :
    f.flen = f.bytes.length := by
  rcases (frame_wf_iff f).mp hwf with ⟨bs, rfl, -⟩ | ⟨bs, rfl, -, -⟩
  · rfl
  · exact nomatch hover

/-- R91: the last byte of a completed frame that fits is the terminator. -/
theorem getLast?_of_endsAtFirstTerminator {bs : List Byte} (h : endsAtFirstTerminator bs = true) :
    bs.getLast? = some Config.termByte := by
  rcases List.eq_nil_or_concat' bs with rfl | ⟨init, last, rfl⟩
  · exact nomatch h
  · rw [endsAtFirstTerminator_concat, Bool.and_eq_true, beq_iff_eq] at h
    obtain ⟨-, rfl⟩ := h
    exact List.getLast?_concat

theorem getElem?_last_of_wf {f : Frame} (hwf : f.wf = true) (hover : f.overlong = false) :
    f.bytes[f.bytes.length - 1]? = some Config.termByte := by
  rcases (frame_wf_iff f).mp hwf with ⟨bs, rfl, hends⟩ | ⟨bs, rfl, -, -⟩
  · rw [← List.getLast?_eq_getElem?]
    exact getLast?_of_endsAtFirstTerminator hends
  · exact nomatch hover

/-- R110 on a completed frame, by its bytes: the reported length is their number, and eleven of them hold both
checked ones. -/
theorem filterFrame_iff_of_wf {f : Frame} (hwf : f.wf = true) :
    filterFrame f = true ↔ f.overlong = false ∧ f.bytes.length = Config.msgLen ∧
      f.bytes[Config.id2Off]? = some Config.id2Val ∧ f.bytes[Config.id3Off]? = some Config.id3Val := by
  rw [filterFrame_iff]
  refine and_congr_right fun hover => ?_
  rw [flen_eq_length_of_wf hwf hover]
  refine and_congr_right fun hlen => ?_
  have h2 : Config.id2Off < f.bytes.length := hlen ▸ (by decide)
  have h3 : Config.id3Off < f.bytes.length := hlen ▸ (by decide)
  rw [frameByte_eq_iff h2, frameByte_eq_iff h3]

/-- R63, R110: the frames that FILTER accepts are those of the class FREQMSG. -/
theorem filterFrame_eq_isFreqMsg {f : Frame} (hwf : f.wf = true) : filterFrame f = f.isFreqMsg := by
  rw [Bool.eq_iff_iff, filterFrame_iff_of_wf hwf]
  simp only [Frame.isFreqMsg, Bool.and_eq_true, Bool.not_eq_true', decide_eq_true_eq, beq_iff_eq, and_assoc]
  refine and_congr_right fun hover => and_congr_right fun hlen => and_congr_right fun _ => ?_
  have hterm : f.bytes[Config.msgLen - 1]? = some Config.termByte := hlen ▸ getElem?_last_of_wf hwf hover
  exact (and_iff_left hterm).symm

/-- R112: PIPE's record of a frame that FILTER does not accept. -/
theorem pipe_rejected {f : Frame} (los his : Vector Freq 11) (h : filterFrame f = false) :
    pipe los his f = rejection f := if_neg (Bool.eq_false_iff.mp h)

/-! ### The two operations -/

theorem exec_filter (f : Frame) (s : State) :
    exec (.filter f) s = .next (showStage (.filter (filterFrame f)) s) := rfl

theorem exec_other (f : Frame) (s : State) :
    exec (.other f) s = .next (showStage (.record (pipe s.bndLo s.bndHi f)) s) := rfl

/-- Settles O24: the value presented is FILTER's, which `filterFrame_iff_of_wf` reads by the frame's bytes. -/
theorem filterAcceptsFrequencyMessagesOnly : Obligations.FilterAcceptsFrequencyMessagesOnly :=
  fun s f hwf => ⟨_, _, exec_filter f s, sameMachine_showStage _ s, shows_showStage _ s, filterFrame_iff_of_wf hwf⟩

/-- Settles O26: a completed frame that is no frequency message is none that FILTER accepts. -/
theorem otherFramesAreRejected : Obligations.OtherFramesAreRejected := by
  intro s f hother
  simp only [Instr.wf, Bool.and_eq_true, Bool.not_eq_true'] at hother
  obtain ⟨hwf, hclass⟩ := hother
  have hrej : filterFrame f = false := (filterFrame_eq_isFreqMsg hwf).trans hclass
  refine ⟨_, exec_other f s, sameMachine_showStage _ s, ?_⟩
  rw [pipe_rejected s.bndLo s.bndHi hrej]
  exact shows_showStage _ s

end Sys2Proof.Machine
end

section
/-!
PROOFS, family `42_bcd_decoder.md`: the stage BCDDEC. The digit word is read in two ways, as five bytes (R120, R123) and as
ten nibbles. Its nibbles are the base-16 digits of the word and, where all are decimal, the base-10 digits of the
frequency, so the one-to-one correspondence of R124 is that of numbers and their digit strings of length ten.
-/

namespace Sys2Proof.Machine

/-! ### The nibbles of a digit word -/

theorem digit_toNat (d : Digits) (j : Nat) : (digit d j).toNat = d.toNat / 16 ^ (9 - j) % 16 := by
  have hpow : 2 ^ (36 - 4 * j) = 16 ^ (9 - j) := by
    rw [show 36 - 4 * j = 4 * (9 - j) by omega]
    exact pow_mul 2 4 (9 - j)
  rw [digit, BitVec.extractLsb'_toNat, Nat.shiftRight_eq_div_pow, hpow]

theorem operandByte_toNat (d : Digits) (k : Nat) : (operandByte d k).toNat = d.toNat / 16 ^ (2 * k) % 256 := by
  have hpow : 2 ^ (8 * k) = 16 ^ (2 * k) := by
    rw [show 8 * k = 4 * (2 * k) by omega]
    exact pow_mul 2 4 (2 * k)
  rw [operandByte, BitVec.extractLsb'_toNat, Nat.shiftRight_eq_div_pow, hpow]

/-- R121: the even lanes are the high nibbles of the bytes. -/
theorem digit_high (d : Digits) {k : Nat} (hk : k < 5) : (digit d (8 - 2 * k)).toNat = (operandByte d k).toNat / 16 := by
  rw [digit_toNat, operandByte_toNat, show 9 - (8 - 2 * k) = 2 * k + 1 by omega, pow_succ, ← Nat.div_div_eq_div_mul]
  omega

/-- R121: the odd lanes are the low nibbles of the bytes. -/
theorem digit_low (d : Digits) {k : Nat} (hk : k < 5) : (digit d (9 - 2 * k)).toNat = (operandByte d k).toNat % 16 := by
  rw [digit_toNat, operandByte_toNat, show 9 - (9 - 2 * k) = 2 * k by omega]
  omega

/-- The five bytes of a digit word, the least significant first. -/
def operandBytes (d : Digits) : List Byte := (List.range 5).map (operandByte d)

theorem operandBytes_packOperand (b0 b1 b2 b3 b4 : Byte) :
    operandBytes (packOperand b0 b1 b2 b3 b4) = [b0, b1, b2, b3, b4] := by
  obtain ⟨h0, h1, h2, h3, h4⟩ := operandByte_packOperand b0 b1 b2 b3 b4
  simp [operandBytes, List.range_succ, h0, h1, h2, h3, h4]

/-- R122: the ten digits are decimal exactly when both nibbles of each byte are. -/
theorem digitsValid_iff_bytes (d : Digits) :
    digitsValid d = true ↔ ∀ b ∈ operandBytes d, b.toNat / 16 ≤ 9 ∧ b.toNat % 16 ≤ 9 := by
  simp only [digitsValid_iff, operandBytes, List.forall_mem_map, List.mem_range]
  constructor
  · intro h k hk
    rw [← digit_high d hk, ← digit_low d hk]
    exact ⟨h _ (by omega), h _ (by omega)⟩
  · intro h j hj
    obtain ⟨k, hk, rfl | rfl⟩ : ∃ k < 5, j = 8 - 2 * k ∨ j = 9 - 2 * k := ⟨(9 - j) / 2, by omega, by omega⟩
    · exact (digit_high d hk).trans_le (h k hk).1
    · exact (digit_low d hk).trans_le (h k hk).2

/-- R123: the number that the digits write, by bytes: two digits each, byte k weighted by 100^k. -/
theorem digitSum_packOperand (b0 b1 b2 b3 b4 : Byte) :
    digitSum (packOperand b0 b1 b2 b3 b4)
      = (10 * (b0.toNat / 16) + b0.toNat % 16) + (10 * (b1.toNat / 16) + b1.toNat % 16) * 100
        + (10 * (b2.toNat / 16) + b2.toNat % 16) * 10000 + (10 * (b3.toNat / 16) + b3.toNat % 16) * 1000000
        + (10 * (b4.toNat / 16) + b4.toNat % 16) * 100000000 := by
  obtain ⟨h0, h1, h2, h3, h4⟩ := operandByte_packOperand b0 b1 b2 b3 b4
  have high {k : Nat} (hk : k < 5) := digit_high (packOperand b0 b1 b2 b3 b4) hk
  have low {k : Nat} (hk : k < 5) := digit_low (packOperand b0 b1 b2 b3 b4) hk
  rw [digitSum, high (k := 4) (by decide), low (k := 4) (by decide), high (k := 3) (by decide),
    low (k := 3) (by decide), high (k := 2) (by decide), low (k := 2) (by decide), high (k := 1) (by decide),
    low (k := 1) (by decide), high (k := 0) (by decide), low (k := 0) (by decide), h0, h1, h2, h3, h4]
  omega

/-! ### BCDDEC -/

theorem exec_bcddec (b0 b1 b2 b3 b4 : Byte) (s : State) :
    exec (.bcddec b0 b1 b2 b3 b4) s = .next (showStage (.decoded (packOperand b0 b1 b2 b3 b4)
      (bcdFrequency (packOperand b0 b1 b2 b3 b4)) (bcdError (packOperand b0 b1 b2 b3 b4))) s) := rfl

/-- A frequency is decoded exactly from ten decimal digits, and it is the number that they write. -/
theorem bcdFrequency_eq_some_iff (d : Digits) (n : Nat) :
    (∃ q, bcdFrequency d = some q ∧ q.toNat = n) ↔ digitsValid d = true ∧ digitSum d = n := by
  constructor
  · rintro ⟨q, hq, hn⟩
    rcases bcdFrequency_cases d with ⟨hv, -, -⟩ | ⟨-, hnone, -⟩
    · obtain ⟨q', hq', hsum⟩ := bcdFrequency_valid ((digitsValid_iff d).mp hv)
      obtain rfl := Option.some.inj (hq.symm.trans hq')
      exact ⟨hv, hsum.symm.trans hn⟩
    · exact nomatch hq.symm.trans hnone
  · rintro ⟨hv, rfl⟩
    exact bcdFrequency_valid ((digitsValid_iff d).mp hv)

/-- Settles O27: the digit word is the packed operand, whose digits are the nibbles of the bytes. -/
theorem bcddecDecodesPackedDigits : Obligations.BcddecDecodesPackedDigits := by
  intro s b0 b1 b2 b3 b4
  have hvalid_iff := digitsValid_iff_bytes (packOperand b0 b1 b2 b3 b4)
  rw [operandBytes_packOperand] at hvalid_iff
  refine ⟨_, _, _, exec_bcddec b0 b1 b2 b3 b4 s, sameMachine_showStage _ s, shows_showStage _ s,
    fun hgood => ?_, fun ⟨b, hb, hbad⟩ => ?_⟩
  · have hv := hvalid_iff.mpr hgood
    exact ⟨if_pos hv, (bcdFrequency_eq_some_iff _ _).mpr ⟨hv, digitSum_packOperand b0 b1 b2 b3 b4⟩⟩
  · have hv : ¬ digitsValid (packOperand b0 b1 b2 b3 b4) = true := fun hv => by
      obtain ⟨hhigh, hlow⟩ := hvalid_iff.mp hv b hb
      omega
    exact ⟨if_neg hv, if_neg hv⟩

/-- Settles O29: the five bytes of the example are packed decimal digits. -/
theorem bcddecWorkedExample : Obligations.BcddecWorkedExample := by
  intro s
  obtain ⟨t, fr, e, ht, -, hshows, hdecimal, -⟩ :=
    bcddecDecodesPackedDigits s 0x00#8 0x00#8 0x14#8 0x35#8 0x21#8
  obtain ⟨rfl, q, rfl, hq⟩ := hdecimal (by simp)
  obtain rfl : q = 2135140000#34 := BitVec.eq_of_toNat_eq hq
  exact ⟨t, ht, hshows⟩

/-! ### Digit words and frequencies (R124) -/

/-- The ten digits as numbers, the least significant first, as `Nat.ofDigits` reads them. -/
def nibbles (d : Digits) : List Nat := (List.range 10).map fun k => (digit d (9 - k)).toNat

theorem nibbles_eq (d : Digits) : nibbles d =
    [(digit d 9).toNat, (digit d 8).toNat, (digit d 7).toNat, (digit d 6).toNat, (digit d 5).toNat,
      (digit d 4).toNat, (digit d 3).toNat, (digit d 2).toNat, (digit d 1).toNat, (digit d 0).toNat] := rfl

theorem nibbles_length (d : Digits) : (nibbles d).length = 10 := rfl

theorem nibbles_lt_sixteen (d : Digits) : ∀ x ∈ nibbles d, x < 16 := by
  simp only [nibbles, List.forall_mem_map]
  exact fun k _ => (digit d (9 - k)).isLt

theorem digitsValid_iff_nibbles (d : Digits) : digitsValid d = true ↔ ∀ x ∈ nibbles d, x < 10 := by
  simp only [digitsValid_iff, nibbles, List.forall_mem_map, List.mem_range]
  constructor
  · exact fun h k _ => Nat.lt_succ_of_le (h (9 - k) (by omega))
  · intro h j hj
    have hlt := h (9 - j) (by omega)
    rw [show 9 - (9 - j) = j by omega] at hlt
    exact Nat.le_of_lt_succ hlt

/-- Base 10 gives the number that the digits write. -/
theorem ofDigits_ten_nibbles (d : Digits) : Nat.ofDigits 10 (nibbles d) = digitSum d := by
  simp only [nibbles_eq, Nat.ofDigits_cons, Nat.ofDigits_nil, digitSum]
  omega

/-- Base 16 gives the word itself. -/
theorem ofDigits_sixteen_nibbles (d : Digits) : Nat.ofDigits 16 (nibbles d) = d.toNat := by
  have hd := d.isLt
  simp only [nibbles_eq, Nat.ofDigits_cons, Nat.ofDigits_nil, digit_toNat]
  omega

theorem nibbles_injective : Function.Injective nibbles := by
  intro d d' h
  apply BitVec.eq_of_toNat_eq
  rw [← ofDigits_sixteen_nibbles d, h, ofDigits_sixteen_nibbles]

/-- Every list of ten nibbles is that of a digit word. -/
theorem exists_nibbles_eq {ns : List Nat} (hlen : ns.length = 10) (hlt : ∀ x ∈ ns, x < 16) :
    ∃ d, nibbles d = ns := by
  have hbound : Nat.ofDigits 16 ns < 2 ^ 40 :=
    (Nat.ofDigits_lt_base_pow_length (by decide) hlt).trans_eq (by rw [hlen]; rfl)
  refine ⟨BitVec.ofNat 40 (Nat.ofDigits 16 ns), ?_⟩
  apply Nat.ofDigits_inj_of_len_eq (b := 16) (by decide) ((nibbles_length _).trans hlen.symm) (nibbles_lt_sixteen _) hlt
  rw [ofDigits_sixteen_nibbles, BitVec.toNat_ofNat, Nat.mod_eq_of_lt hbound]

/-- Valid digit words that write the same number are equal. -/
theorem eq_of_digitSum_eq {d d' : Digits} (hv : digitsValid d = true) (hv' : digitsValid d' = true)
    (h : digitSum d = digitSum d') : d = d' := by
  apply nibbles_injective
  apply Nat.ofDigits_inj_of_len_eq (b := 10) (by decide) ((nibbles_length d).trans (nibbles_length d').symm)
    ((digitsValid_iff_nibbles d).mp hv) ((digitsValid_iff_nibbles d').mp hv')
  rw [ofDigits_ten_nibbles, h, ofDigits_ten_nibbles]

/-- Every number below 10^10 is written by a valid digit word: its ten decimal digits. -/
theorem exists_digitSum_eq {n : Nat} (hn : n < 10 ^ 10) : ∃ d, digitsValid d = true ∧ digitSum d = n := by
  obtain ⟨hlen, hlt⟩ := Nat.mapsTo_digitsAppend (b := 10) (by decide) 10 hn
  obtain ⟨d, hd⟩ := exists_nibbles_eq hlen fun x hx => (hlt x hx).trans (by decide)
  refine ⟨d, (digitsValid_iff_nibbles d).mpr (hd ▸ hlt), ?_⟩
  rw [← ofDigits_ten_nibbles, hd]
  exact (Nat.setInvOn_digitsAppend_ofDigits (b := 10) (by decide) 10).2 hn

/-- Settles O28: a frequency is the number that ten decimal digits write, and a number below 10^10 has one string of ten
decimal digits. -/
theorem bcdFieldsAndFrequenciesAreOneToOne : Obligations.BcdFieldsAndFrequenciesAreOneToOne := by
  constructor
  · intro n hn
    simp only [bcdFrequency_eq_some_iff]
    obtain ⟨d, hv, hsum⟩ := exists_digitSum_eq (show n < 10 ^ 10 by omega)
    exact ⟨d, ⟨hv, hsum⟩, fun d' ⟨hv', hsum'⟩ => eq_of_digitSum_eq hv' hv (hsum'.trans hsum.symm)⟩
  · intro d q hq
    obtain ⟨hv, hsum⟩ := (bcdFrequency_eq_some_iff d q.toNat).mp ⟨q, hq, rfl⟩
    exact hsum ▸ digitSum_le ((digitsValid_iff d).mp hv)

end Sys2Proof.Machine
end

section
/-!
PROOFS, family `43_band_mapper.md`: BANDMAP (R135, R137) and its eleven rows (R136), for any boundaries; then the reset
boundaries (R139, R140). The rows are ascending at reset, so a frequency is in one row at most; and every row lies
wholly below or wholly above each listed gap.
-/

namespace Sys2Proof.Machine

/-! ### The range table, and the operations that read it -/

/-- R7: the bands of the rows, written out. -/
theorem rowBand_written_out (r : Row) :
    [160#10, 80#10, 60#10, 40#10, 30#10, 20#10, 17#10, 15#10, 12#10, 10#10, 6#10][r.val]? = some (rowBand r) := by
  fin_cases r <;> rfl

/-- The eleven operations of format `range34`, written out, are those that `decodeRange` selects. -/
theorem rangeRows_written_out :
    ([(.bandmap160, 0, 160#10), (.bandmap80, 1, 80#10), (.bandmap60, 2, 60#10), (.bandmap40, 3, 40#10),
      (.bandmap30, 4, 30#10), (.bandmap20, 5, 20#10), (.bandmap17, 6, 17#10), (.bandmap15, 7, 15#10),
      (.bandmap12, 8, 12#10), (.bandmap10, 9, 10#10), (.bandmap6, 10, 6#10)] : List ((Freq → Instr) × Row × Band))
      = (List.finRange 11).map fun r => (decodeRange r, r, rowBand r) := rfl

theorem exec_bandmap (f : Freq) (s : State) :
    exec (.bandmap f) s
      = .next (showStage (.band (bandMap s.bndLo s.bndHi f) (bandMapError (bandMap s.bndLo s.bndHi f))) s) := rfl

theorem exec_decodeRange (r : Row) (f : Freq) (s : State) : exec (decodeRange r f) s = .next (showRow r f s) := by
  fin_cases r <;> rfl

/-- Settles O30: `bandMap_of_no_row` and `bandMap_of_firstRow` give the band, and the band gives the error. -/
theorem bandmapTakesTheFirstRow : Obligations.BandmapTakesTheFirstRow := by
  intro s f
  refine ⟨_, _, _, exec_bandmap f s, sameMachine_showStage _ s, shows_showStage _ s, fun hno => ?_, fun r hr => ?_⟩
  · rw [bandMap_of_no_row hno]
    exact ⟨rfl, rfl⟩
  · rw [bandMap_of_firstRow hr, rowBand_written_out]
    exact ⟨rfl, rfl⟩

/-- Settles O31: a row presents its band exactly when its own test `rowContains` succeeds. -/
theorem rangeRowsTestOneRange : Obligations.RangeRowsTestOneRange := by
  intro p hp s f
  obtain ⟨r, -, rfl⟩ := List.mem_map.mp (rangeRows_written_out ▸ hp)
  have hiff := rowContains_iff s.bndLo s.bndHi f r
  exact ⟨_, _, exec_decodeRange r f s, sameMachine_showStage _ s, shows_showStage _ s,
    fun hin => if_pos (hiff.mpr hin), fun hout => if_neg (mt hiff.mp hout)⟩

/-! ### Ranges in ascending order, and gaps between them (R139) -/

/-- The high bound of a lower row is below the low bound of every higher row. -/
def Ascending (los his : Vector Freq 11) : Prop := ∀ q r : Row, q < r → (bound his q).toNat < (bound los r).toNat

/-- The numbers from `g.1` to `g.2` are a gap: every row lies wholly below or wholly above them. -/
def IsGap (los his : Vector Freq 11) (g : Nat × Nat) : Prop :=
  ∀ r : Row, (bound his r).toNat < g.1 ∨ g.2 < (bound los r).toNat

theorem not_inRow_of_lt {los his : Vector Freq 11} (h : Ascending los his) {f : Freq} {q r : Row}
    (hq : InRow los his q f) (hlt : q < r) : ¬ InRow los his r f := by
  rintro ⟨hlow, -⟩
  have hsep := h q r hlt
  exact absurd hq.2 (Nat.not_le.mpr (hsep.trans_le hlow))

theorem inRow_unique {los his : Vector Freq 11} (h : Ascending los his) {f : Freq} {q r : Row}
    (hq : InRow los his q f) (hr : InRow los his r f) : q = r := by
  rcases lt_trichotomy q r with hlt | heq | hgt
  · exact absurd hr (not_inRow_of_lt h hq hlt)
  · exact heq
  · exact absurd hq (not_inRow_of_lt h hr hgt)

/-- With ascending ranges the order in which the rows are tried cannot be observed. -/
theorem bandMap_of_inRow {los his : Vector Freq 11} (h : Ascending los his) {f : Freq} {r : Row}
    (hr : InRow los his r f) : bandMap los his f = some (rowBand r) :=
  bandMap_of_firstRow ⟨hr, fun _ hlt hq => not_inRow_of_lt h hq hlt hr⟩

theorem bandMap_of_isGap {los his : Vector Freq 11} {g : Nat × Nat} (hg : IsGap los his g) {f : Freq}
    (hlow : g.1 ≤ f.toNat) (hhigh : f.toNat ≤ g.2) : bandMap los his f = none := by
  refine bandMap_of_no_row fun r ⟨hlo, hhi⟩ => ?_
  rcases hg r with hbelow | habove
  · exact absurd hhi (Nat.not_le.mpr (hbelow.trans_le hlow))
  · exact absurd hlo (Nat.not_le.mpr (hhigh.trans_lt habove))

/-! ### The reset boundaries -/

theorem reset_low_le_high (r : Row) : (bound State.reset.bndLo r).toNat ≤ (bound State.reset.bndHi r).toNat := by
  decide +revert

theorem reset_ascending : Ascending State.reset.bndLo State.reset.bndHi := by
  unfold Ascending
  decide

/-- The gaps of R139, the lowest first. -/
def resetGaps : List (Nat × Nat) :=
  [(0, 1809999), (2000001, 3499999), (3800001, 5249999), (5450001, 6999999), (7200001, 10099999),
    (10150001, 13999999), (14350001, 18067999), (18168001, 20999999), (21450001, 24889999), (24990001, 27999999),
    (29700001, 49999999), (52000001, 9999999999)]

theorem resetGaps_isGap : ∀ g ∈ resetGaps, IsGap State.reset.bndLo State.reset.bndHi g := by
  unfold IsGap
  decide

theorem bandMap_of_mem_resetGaps {g : Nat × Nat} (hg : g ∈ resetGaps) {f : Freq} (hlow : g.1 ≤ f.toNat)
    (hhigh : f.toNat ≤ g.2) : bandMap State.reset.bndLo State.reset.bndHi f = none :=
  bandMap_of_isGap (resetGaps_isGap g hg) hlow hhigh

/-- Settles O32: the reset rows are ascending, and each of the twelve gaps is one in the sense of `IsGap`. -/
theorem resetRangesAreDisjoint : Obligations.ResetRangesAreDisjoint :=
  ⟨reset_low_le_high, reset_ascending, fun _ _ _ => inRow_unique reset_ascending,
    fun _ ⟨_, hmem, hlow, hhigh⟩ => bandMap_of_mem_resetGaps hmem hlow hhigh⟩

/-- Settles O33: the frequencies of the examples lie in row 5, in row 0 and in two of the gaps. -/
theorem bandmapDocumentExamples : Obligations.BandmapDocumentExamples := by
  refine ⟨?_, ?_, ?_, ?_, ?_⟩
  · exact bandMap_of_inRow (r := 5) reset_ascending ⟨by decide, by decide⟩
  · exact bandMap_of_inRow (r := 5) reset_ascending ⟨by decide, by decide⟩
  · exact bandMap_of_mem_resetGaps (g := (14350001, 18067999)) (by decide) (by decide) (by decide)
  · exact bandMap_of_mem_resetGaps (g := (0, 1809999)) (by decide) (by decide) (by decide)
  · exact bandMap_of_inRow (r := 0) reset_ascending ⟨by decide, by decide⟩

end Sys2Proof.Machine
end

section
/-!
PROOFS, family `44_band_code_encoder.md`: BANDENC (R150, R152) and its twelve rows, that the codes are one-to-one (R151),
and that PIPE never reports UnknownBandCode (R153). A band value is the band of a row or of no row at all
(`knownBand_iff`); BANDENC gives the row's code in the first case and the sentinel in the second.
-/

namespace Sys2Proof.Machine

/-! ### The code table -/

/-- R7, R150: a value outside the bands of the table, written out, is the band of no row. -/
theorem ne_rowBand_of_not_mem {b : Band}
    (h : b ∉ [160#10, 80#10, 60#10, 40#10, 30#10, 20#10, 17#10, 15#10, 12#10, 10#10, 6#10]) (r : Row) :
    b ≠ rowBand r := by
  rintro rfl
  exact h (List.mem_of_getElem? (rowBand_written_out r))

theorem mem_bandCodes_iff (b : Band) (c : Code) :
    (b, c) ∈ Config.bandCodes ↔ ∃ r : Row, b = rowBand r ∧ c = Config.rowCodes[r] := by
  simp [Config.bandCodes, rowBand, eq_comm]

/-- R151: the codes of two rows differ. -/
theorem rowCodes_injective : Function.Injective fun r : Row => Config.rowCodes[r] := by
  unfold Function.Injective
  decide

/-- R151: the packed codes of the rows are the numbers up to 10. -/
theorem packCode_rowCode_le (r : Row) : (packCode Config.rowCodes[r]).toNat ≤ 10 := by
  decide +revert

theorem rowCode_ne_sentinel (r : Row) : Config.rowCodes[r] ≠ Config.sentinel := by
  decide +revert

/-! ### BANDENC and the rows that present its result -/

/-- R152: BANDENC answers the sentinel for a band value of no row. -/
theorem bandEncode_of_no_row {b : Band} (h : ∀ r, b ≠ rowBand r) : bandEncode b = (Config.sentinel, false) := by
  rcases bandEncode_cases b with ⟨c, hc, -⟩ | ⟨-, hb⟩
  · obtain ⟨p, hp, -⟩ := Option.map_eq_some_iff.mp hc
    have hband := List.find?_some (p := fun p : Band × Code => p.1 == b) hp
    have hknown : knownBand b = true := List.any_eq_true.mpr ⟨p, List.mem_of_find?_eq_some hp, hband⟩
    obtain ⟨r, hr⟩ := (knownBand_iff b).mp hknown
    exact absurd hr (h r)
  · exact hb

/-- R151: a packed code that BANDENC gives is at most 10, or it is the sentinel's 15. -/
theorem packCode_bandEncode_cases (b : Band) :
    (packCode (bandEncode b).1).toNat ≤ 10 ∨ packCode (bandEncode b).1 = 0b1111#4 := by
  by_cases h : ∃ r, b = rowBand r
  · obtain ⟨r, rfl⟩ := h
    rw [bandEncode_rowBand]
    exact .inl (packCode_rowCode_le r)
  · rw [bandEncode_of_no_row (not_exists.mp h)]
    exact .inr rfl

/-- R150: what is presented for the band of a row. -/
theorem showCode_rowBand (r : Row) (s : State) :
    showCode (rowBand r) s = showStage (.code Config.rowCodes[r] true .noError) s := by
  rw [showCode, bandEncode_rowBand]
  rfl

/-- R152: what is presented for a band value of no row. -/
theorem showCode_of_no_row {b : Band} (h : ∀ r, b ≠ rowBand r) (s : State) :
    showCode b s = showStage (.code Config.sentinel false .unknownBandCode) s := by
  rw [showCode, bandEncode_of_no_row h]
  rfl

theorem exec_bandenc (b : Band) (s : State) : exec (.bandenc b) s = .next (showCode b s) := rfl

theorem exec_bandencUnknown (b : Band) (s : State) : exec (.bandencUnknown b) s = .next (showCode b s) := rfl

/-- The operation of a row, as `decodeBand` selects it by the row's band, presents BANDENC's result for that band. -/
theorem exec_decodeBand_rowBand (r : Row) (s : State) :
    exec (decodeBand (rowBand r)) s = .next (showCode (rowBand r) s) := by
  fin_cases r <;> rfl

/-- The eleven code rows of format `band10`, written out, are those that `decodeBand` selects. -/
theorem codeRows_written_out :
    ([(.bandenc160, ⟨false, false, false, true⟩), (.bandenc80, ⟨false, false, true, false⟩),
      (.bandenc60, ⟨false, false, false, false⟩), (.bandenc40, ⟨false, false, true, true⟩),
      (.bandenc30, ⟨false, true, false, false⟩), (.bandenc20, ⟨false, true, false, true⟩),
      (.bandenc17, ⟨false, true, true, false⟩), (.bandenc15, ⟨false, true, true, true⟩),
      (.bandenc12, ⟨true, false, false, false⟩), (.bandenc10, ⟨true, false, false, true⟩),
      (.bandenc6, ⟨true, false, true, false⟩)] : List (Instr × Code))
      = (List.finRange 11).map fun r => (decodeBand (rowBand r), Config.rowCodes[r]) := rfl

/-! ### The statements -/

/-- BANDMAP gives no band but those of the rows, whatever the boundaries (R32, R135). -/
theorem exists_row_of_bandMap {los his : Vector Freq 11} {f : Freq} {b : Band} (h : bandMap los his f = some b) :
    ∃ r, b = rowBand r := by
  rcases bandMap_cases los his f with ⟨r, -, -, hmap⟩ | ⟨-, hmap⟩
  · exact ⟨r, Option.some.inj (h.symm.trans hmap)⟩
  · exact nomatch h.symm.trans hmap

/-- R153: BANDENC knows every band that BANDMAP gives. -/
theorem bandEncode_valid_of_bandMap {los his : Vector Freq 11} {f : Freq} {b : Band}
    (h : bandMap los his f = some b) : (bandEncode b).2 = true := by
  obtain ⟨r, rfl⟩ := exists_row_of_bandMap h
  rw [bandEncode_rowBand]

theorem frameRecord_err_ne_unknownBandCode (f : Frame) : (frameRecord f).err ≠ .unknownBandCode := by
  simp only [frameRecord]
  split_ifs <;> decide

/-- R153: of PIPE's five records, the one with UnknownBandCode asks for a band that BANDENC does not know. -/
theorem pipe_err_ne_unknownBandCode (los his : Vector Freq 11) (f : Frame) :
    (pipe los his f).err ≠ .unknownBandCode := by
  rcases pipe_cases los his f with ⟨-, hp⟩ | ⟨-, -, hp⟩ | ⟨q, -, -, -, hp⟩ | ⟨q, b, -, -, hmap, hinvalid, -⟩ |
    ⟨q, b, -, -, -, -, hp⟩
  · rw [hp]
    exact frameRecord_err_ne_unknownBandCode f
  · simp [hp]
  · simp [hp]
  · exact nomatch hinvalid.symm.trans (bandEncode_valid_of_bandMap hmap)
  · rw [hp]
    exact frameRecord_err_ne_unknownBandCode f

/-- Settles O39: BANDMAP gives bands of rows only, and 40 is the band of row 3 while 999 is that of none. -/
theorem unknownBandCodeIsUnreachableThroughPipe : Obligations.UnknownBandCodeIsUnreachableThroughPipe :=
  ⟨pipe_err_ne_unknownBandCode, fun _ _ _ _ => bandEncode_valid_of_bandMap, bandEncode_rowBand 3,
    bandEncode_of_no_row (by decide)⟩

/-- Settles O34: the table written out is `bandCodes_eq`, and a value outside it is the band of no row. -/
theorem bandencLooksUpTheTable : Obligations.BandencLooksUpTheTable := by
  intro s b
  refine ⟨_, _, _, _, exec_bandenc b s, sameMachine_showStage _ s, shows_showStage _ s, fun p hp hb => ?_,
    fun hout => ?_⟩
  · obtain ⟨r, hband, hcode⟩ := (mem_bandCodes_iff p.1 p.2).mp (bandCodes_eq ▸ hp)
    rw [hb, hband, hcode, bandEncode_rowBand]
    exact ⟨rfl, rfl, rfl⟩
  · rw [bandEncode_of_no_row (ne_rowBand_of_not_mem hout)]
    exact ⟨rfl, rfl, rfl⟩

/-- Settles O35: a code row presents BANDENC's result for its own band. -/
theorem codeRowsGiveTheDocumentsCodes : Obligations.CodeRowsGiveTheDocumentsCodes := by
  intro p hp s
  obtain ⟨r, -, rfl⟩ := List.mem_map.mp (codeRows_written_out ▸ hp)
  refine ⟨_, exec_decodeBand_rowBand r s, ?_⟩
  rw [showCode_rowBand]
  exact ⟨sameMachine_showStage _ s, shows_showStage _ s⟩

/-- Settles O36: a band value outside the eleven is the band of no row. -/
theorem unknownBandsGetTheSentinel : Obligations.UnknownBandsGetTheSentinel := by
  intro s b hout
  refine ⟨_, exec_bandencUnknown b s, ?_⟩
  rw [showCode_of_no_row (ne_rowBand_of_not_mem hout)]
  exact ⟨sameMachine_showStage _ s, shows_showStage _ s⟩

/-- Settles O37: a code determines its row, and a packed code is at most 10 or the sentinel's. -/
theorem bandCodesAreOneToOne : Obligations.BandCodesAreOneToOne := by
  refine ⟨fun b b' c h h' => ?_, fun b c h => ?_, rowBand_rowCode_mem 2, rowBand_rowCode_mem 0,
    rowBand_rowCode_mem 1, fun b => ?_⟩
  · obtain ⟨r, rfl, hc⟩ := (mem_bandCodes_iff b c).mp h
    obtain ⟨r', rfl, hc'⟩ := (mem_bandCodes_iff b' c).mp h'
    exact congrArg rowBand (rowCodes_injective (hc.symm.trans hc'))
  · obtain ⟨r, -, rfl⟩ := (mem_bandCodes_iff b c).mp h
    exact rowCode_ne_sentinel r
  · rcases packCode_bandEncode_cases b with hle | hsentinel
    · refine ⟨?_, ?_, ?_, ?_⟩ <;> bv_omega
    · rw [hsentinel]
      decide

end Sys2Proof.Machine
end

section
/-!
PROOFS, family `45_pipeline.md`: the record that PIPE builds (R161) and its shapes (R165), the RDERR record (R162), the
output signals (R163), and two statements about runs: NODATA events can be deleted (R168), and the old bytes of the
buffer are never seen (R167). Each of the last two compares two runs instruction by instruction, by a relation of their
states that every instruction keeps.
-/

namespace Sys2Proof.Machine

/-! ### The record that PIPE builds -/

theorem exec_pipe (f : Frame) (s : State) :
    exec (.pipe f) s = .next (showStage (.record (pipe s.bndLo s.bndHi f)) s) := rfl

/-- Settles O38: a completed frame that is no frequency message is rejected, and one that is has the fields of
`freqMsgFrame`, whose record holds the later stages' results. -/
theorem pipeBuildsTheRecordInStageOrder : Obligations.PipeBuildsTheRecordInStageOrder := by
  intro s f hwf
  have hfilter := filterFrame_eq_isFreqMsg hwf
  refine ⟨_, _, exec_pipe f s, sameMachine_showStage _ s, shows_showStage _ s, fun hother => ?_, fun hmsg => ?_⟩
  · exact pipe_rejected _ _ (hfilter.trans hother)
  · have haccept := hfilter.trans hmsg
    obtain ⟨hkind, hframe, hflen, hover, haccepted⟩ := pipe_frame_fields s.bndLo s.bndHi f
    have hdigits := pipe_digits s.bndLo s.bndHi haccept
    have hresults := pipe_stageResults s.bndLo s.bndHi haccept
    rw [haccept] at haccepted
    obtain ⟨h0, h1, h4, fq0, fq1, fq2, fq3, fq4, rfl⟩ := eq_freqMsgFrame_of_isFreqMsg hwf hmsg
    exact ⟨fq0, fq1, fq2, fq3, fq4, rfl, rfl, rfl, rfl, rfl, hkind, hframe, hflen, hover, haccepted, hdigits,
      hresults⟩

/-- An accepted frame whose digits write a frequency that a row contains: every stage succeeds (R161, shape S6). -/
theorem pipe_band {f : Frame} {los his : Vector Freq 11} {q : Freq} {w : Row} (hf : filterFrame f = true)
    (hq : bcdFrequency (frequencyField f) = some q) (hw : bandMap los his q = some (rowBand w)) :
    pipe los his f = { frameRecord f with
      accepted := some true, digits := some (frequencyField f), freq := some q, band := some (rowBand w),
      code := some Config.rowCodes[w] } := by
  rw [pipe_accepted los his hf, pipeDecode_some los his _ hq, pipeMap_row _ hw]

/-- R166: the ten digits of the example write 14,074,000. -/
theorem bcdFrequency_example : bcdFrequency 0x0014074000#40 = some 14074000#34 := by
  obtain ⟨q, hq, hval⟩ := (bcdFrequency_eq_some_iff 0x0014074000#40 14074000).mpr ⟨by decide, by decide⟩
  rw [hq, BitVec.eq_of_toNat_eq (y := 14074000#34) hval]

/-- R166: the frequency field of the example, whatever bytes 0, 1 and 4 hold. -/
theorem frequencyField_example (h0 h1 h4 : Byte) :
    frequencyField (freqMsgFrame h0 h1 [h4] 0x00#8 0x40#8 0x07#8 0x14#8 0x00#8) = 0x0014074000#40 := by
  rw [frequencyField_freqMsgFrame]
  rfl

/-- Settles O40: the bytes held and the terminator are a frequency message, its digits write 14,074,000, and row 5 of the
reset boundaries contains that frequency. -/
theorem endToEndExampleIsBandTwenty : Obligations.EndToEndExampleIsBandTwenty := by
  intro s h0 h1 h4 hrun hlen hcap hlo hhi hheld
  have hl : s.len < s.frameCap := by omega
  have hframe : completedFrame s = freqMsgFrame h0 h1 [h4] 0x00#8 0x40#8 0x07#8 0x14#8 0x00#8 := by
    rw [completedFrame_fits hl, hheld, hlen]
    rfl
  have hfreq := frequencyField_example h0 h1 h4
  have hband : bandMap s.bndLo s.bndHi 14074000#34 = some (rowBand 5) := by
    rw [hlo, hhi]
    exact bandMap_of_inRow reset_ascending ⟨by decide, by decide⟩
  obtain ⟨t, ht, -, -, hemits⟩ := exec_term_emits hrun hl.le
  rw [hframe, pipe_band (filterFrame_freqMsgFrame h0 h1 h4 _ _ _ _ _) (hfreq ▸ bcdFrequency_example) hband,
    hfreq] at hemits
  rw [hheld]
  exact ⟨t, ht, hemits⟩

/-! ### The shapes of a record (R165) -/

theorem frameRecord_shape (f : Frame) : (frameRecord f).shape = some (if f.overlong then .s2 else .s1) := by
  obtain ⟨bytes, flen, overlong⟩ := f
  cases overlong <;> rfl

/-- PIPE's records have the shapes S1 to S4 and S6; S5 would ask BANDENC for a band that it does not know (R153). -/
theorem pipe_shape (los his : Vector Freq 11) (f : Frame) :
    ∃ sh, (pipe los his f).shape = some sh ∧ sh ≠ .s5 := by
  have fits (haccept : filterFrame f = true) : f.overlong = false := ((filterFrame_iff f).mp haccept).1
  rcases pipe_cases los his f with ⟨-, hp⟩ | ⟨hf, -, hp⟩ | ⟨q, hf, -, -, hp⟩ | ⟨q, b, -, -, hmap, hinvalid, -⟩ |
    ⟨q, b, hf, -, -, -, hp⟩
  · refine ⟨_, hp ▸ frameRecord_shape f, ?_⟩
    split_ifs <;> decide
  · exact ⟨.s3, by simp [hp, Record.shape, frameRecord, fits hf], by decide⟩
  · exact ⟨.s4, by simp [hp, Record.shape, frameRecord, fits hf], by decide⟩
  · exact nomatch hinvalid.symm.trans (bandEncode_valid_of_bandMap hmap)
  · exact ⟨.s6, by simp [hp, Record.shape, frameRecord, fits hf], by decide⟩

/-- The shape S7 is RDERR's. -/
theorem streamErrorRecord_shape : streamErrorRecord.shape = some .s7 := rfl

/-- An event presents no value of an operation evaluated alone. -/
theorem stage_of_event {i : Instr} {s t : State} (he : isEvent i = true) (h : exec i s = .next t) : t.stage = none := by
  rcases exec_cases i s with ⟨-, hrun⟩ | ⟨hno, -⟩ | ⟨-, -, -, hrun⟩ | ⟨-, -, hrun⟩ | ⟨-, -, hrun⟩ |
    ⟨-, a, v, -, hrun⟩ | ⟨-, -, b, -, hrun⟩ | ⟨-, -, b, -, hrun⟩ | ⟨-, -, -, hrun⟩ | ⟨-, -, -, hrun⟩
  case inr.inl => exact nomatch he.symm.trans hno
  all_goals
    obtain rfl := Host.Outcome.next.inj (h.symm.trans hrun)
    rfl

theorem eq_pipe_of_showRecord {f : Frame} {s t : State} {r : Record}
    (h : (.next (showRecord f s) : Host.Outcome State Fault Refusal) = .next t) (hr : t.stage = some (.record r)) :
    r = pipe s.bndLo s.bndHi f := by
  obtain rfl := Host.Outcome.next.inj h
  exact (StageValue.record.inj (Option.some.inj hr)).symm

/-- The operations evaluated alone that present a record, PIPE and the two frame classes, present PIPE's. -/
theorem stage_record_eq_pipe {i : Instr} {s t : State} {r : Record} (he : isEvent i = false) (h : exec i s = .next t)
    (hr : t.stage = some (.record r)) : ∃ f, r = pipe s.bndLo s.bndHi f := by
  cases i with
  | pipe f => exact ⟨f, eq_pipe_of_showRecord h hr⟩
  | other f => exact ⟨f, eq_pipe_of_showRecord h hr⟩
  | freqmsg h0 h1 h4 fq0 fq1 fq2 fq3 fq4 =>
    exact ⟨freqMsgFrame h0 h1 h4 fq0 fq1 fq2 fq3 fq4, eq_pipe_of_showRecord h hr⟩
  | _ => first
    | exact absurd he.symm Bool.false_ne_true
    | obtain rfl := Host.Outcome.next.inj h; exact nomatch hr

/-- A record that is emitted or presented is RDERR's or one that PIPE builds. -/
theorem record_cases {i : Instr} {s t : State} {r : Record} (h : exec i s = .next t)
    (hr : t.out = some r ∨ t.stage = some (.record r)) :
    r = streamErrorRecord ∨ ∃ f, r = pipe s.bndLo s.bndHi f := by
  rcases hr with hout | hstage
  · rcases exec_out_cases h with ⟨hnone, -⟩ | ⟨-, -, hrec⟩ | ⟨-, -, f, hrec⟩
    · exact nomatch hnone.symm.trans hout
    · exact .inl (Option.some.inj (hout.symm.trans hrec))
    · exact .inr ⟨f, Option.some.inj (hout.symm.trans hrec)⟩
  · cases he : isEvent i with
    | true => exact nomatch (stage_of_event he h).symm.trans hstage
    | false => exact .inr (stage_record_eq_pipe he h hstage)

/-- Settles O20: RDERR's record has the shape S7, and PIPE's are those of `pipe_shape`. -/
theorem recordsHaveTheShapesOfTheTable : Obligations.RecordsHaveTheShapesOfTheTable := by
  intro i s t r h hr
  rcases record_cases h hr with rfl | ⟨f, rfl⟩
  · exact ⟨.s7, streamErrorRecord_shape, by decide⟩
  · exact pipe_shape s.bndLo s.bndHi f

/-! ### RDERR (R162) and the output signals (R163) -/

/-- Settles O5: RDERR while running is `takeStreamError`. -/
theorem rderrHaltsAndReportsStreamError : Obligations.RderrHaltsAndReportsStreamError :=
  fun s hrun => ⟨takeStreamError s, streamErrorRecord, exec_rderr hrun, takeStreamError_halt s, takeStreamError_len s,
    takeStreamError_buf s, takeStreamError_bndLo s, takeStreamError_bndHi s, takeStreamError_frameCap s,
    takeStreamError_input s, ⟨takeStreamError_out s, takeStreamError_stage s⟩,
    rfl, rfl, rfl, rfl, rfl, rfl, rfl, rfl, rfl, rfl⟩

theorem signals_of_no_record {t : State} (h : t.out = none) : signals t = idleSignals t.halt := by
  simp only [signals, h]

theorem signals_of_record {t : State} {r : Record} (h : t.out = some r) : signals t = recordSignals r t.halt := by
  simp only [signals, h]

theorem signals_halted (t : State) : (signals t).halted = t.halt := by
  cases h : t.out with
  | none => rw [signals_of_no_record h]; rfl
  | some r => rw [signals_of_record h]; rfl

theorem done_signals_of_pipe {t : State} {los his : Vector Freq 11} {f : Frame} (h : t.out = some (pipe los his f)) :
    (signals t).outFrameDone = true ∧ (signals t).outStreamError = false := by
  obtain ⟨hkind, -⟩ := pipe_frame_fields los his f
  simp [signals_of_record h, recordSignals, hkind]

theorem done_signals_of_rderr {t : State} (h : t.out = some streamErrorRecord) :
    (signals t).outFrameDone = false ∧ (signals t).outStreamError = true := by
  rw [signals_of_record h]
  exact ⟨rfl, rfl⟩

theorem done_signals_of_no_record {t : State} (h : t.out = none) :
    (signals t).outFrameDone = false ∧ (signals t).outStreamError = false := by
  rw [signals_of_no_record h]
  exact ⟨rfl, rfl⟩

/-- Settles O47: what an instruction emits (`exec_out_cases`) gives its done bits. -/
theorem doneSignalsFollowTermAndRderr : Obligations.DoneSignalsFollowTermAndRderr := by
  intro i s t h
  rw [← and_assoc]
  refine ⟨?_, signals_halted t⟩
  rcases exec_out_cases h with ⟨hout, hno⟩ | ⟨hrun, rfl, hout⟩ | ⟨hrun, rfl, f, hout⟩
  · obtain ⟨hframe, herror⟩ := done_signals_of_no_record hout
    rw [hframe, herror]
    exact ⟨iff_of_false nofun fun ⟨hi, hrun⟩ => hno ⟨hrun, .inl hi⟩,
      iff_of_false nofun fun ⟨hi, hrun⟩ => hno ⟨hrun, .inr hi⟩⟩
  · obtain ⟨hframe, herror⟩ := done_signals_of_rderr hout
    simp [hframe, herror, hrun]
  · obtain ⟨hframe, herror⟩ := done_signals_of_pipe hout
    simp [hframe, herror, hrun]

/-- R152, R163: UnknownBandCode without a code drives the sentinel. -/
theorem codeSignal_sentinel {r : Record} (herr : r.err = .unknownBandCode) (hcode : r.code = none) :
    codeSignal r = some (packCode Config.sentinel) := by
  simp only [codeSignal, hcode, herr, if_true]

/-- Settles O48: `codeSignal` drives the packed sentinel, valid only with a code, and idle signals drive no code. -/
theorem sentinelIsDrivenWithoutValid : Obligations.SentinelIsDrivenWithoutValid := by
  intro s t r hs herr hcode ht
  rw [signals_of_record hs, signals_of_no_record ht]
  refine ⟨codeSignal_sentinel herr hcode, ?_, rfl⟩
  exact congrArg (fun c : Option Code => some c.isSome) hcode

/-! ### Deleting NODATA from a run (R168) -/

theorem run_cons_next {i : Instr} {is : List Instr} {rs : List Record} {s t u : State} (ht : exec i s = .next t)
    (hu : run is t = .next (rs, u)) : run (i :: is) s = .next (t.out.toList ++ rs, u) := by
  rw [run, ht, andThen_next, hu, andThen_next]

/-- R96, R168: with NODATA deleted, and from other outputs at the ports, a run emits the same and ends in the same
machine. -/
theorem run_without_nodata (is : List Instr) (s : State) (p : Ports) (hp : p.input = s.input) :
    ∃ rs t q, run is s = .next (rs, t) ∧ q.input = t.input ∧
      run (is.filter fun i => i != .nodata) (withPorts p s) = .next (rs, withPorts q t) := by
  induction is generalizing s p with
  | nil => exact ⟨[], s, p, rfl, hp, rfl⟩
  | cons i is ih =>
    by_cases hi : i = .nodata
    · subst hi
      obtain ⟨rs, t, q, hrun, hq, hdel⟩ := ih (quiet s) p hp
      exact ⟨rs, t, q, (run_cons_of_silent (exec_nodata s) (quiet_out s)).trans hrun, hq, hdel⟩
    · obtain ⟨u, hu, hin⟩ := exec_next_keeps_input i s
      obtain ⟨rs, t, q, hrun, hq, hdel⟩ := ih u ⟨p.input, u.out, u.stage⟩ (hp.trans hin.symm)
      refine ⟨_, t, q, run_cons_next hu hrun, hq, ?_⟩
      rw [List.filter_cons_of_pos (by simpa using hi)]
      exact run_cons_next (t := withPorts ⟨p.input, u.out, u.stage⟩ u) (exec_withPorts p hu) hdel

/-- Settles O44: `run_without_nodata` from the same ports. -/
theorem nodataEventsCanBeDeleted : Obligations.NodataEventsCanBeDeleted := by
  intro is s
  obtain ⟨rs, t, q, hrun, hq, hdel⟩ := run_without_nodata is s s.ports rfl
  exact ⟨rs, t, withPorts q t, hrun, hdel, rfl, rfl, rfl, rfl, rfl, rfl, hq⟩

/-! ### States that agree (R167) -/

/-- R21, R29: an instruction keeps the frame buffer in canonical form. -/
theorem exec_keeps_canonical {i : Instr} {s t : State} (hs : s.buf.wf = true) (h : exec i s = .next t) :
    t.buf.wf = true := by
  rcases exec_buffer_cases h with ⟨hbuf, -⟩ | ⟨-, -, b, -, hbuf, -⟩ | ⟨-, -, -, hbuf, -⟩
  · exact hbuf ▸ hs
  · exact hbuf ▸ Memory.wf_write s.len b hs
  · exact hbuf ▸ Memory.wf_write s.len Config.termByte hs

theorem partialFrame_of_empty {s : State} (h : s.len = 0) : partialFrame s = [] :=
  List.length_eq_zero_iff.mp ((partialFrame_length s).trans h)

/-- R93: the bytes of an overlong frame are bytes held. -/
theorem overlong_bytes {s : State} (h : s.frameCap ≤ s.len) :
    (List.range s.frameCap).map s.buf.read = (partialFrame s).take s.frameCap := by
  rw [partialFrame, ← List.map_take, List.take_range, min_eq_left h]

/-- Between two frames no byte of the buffer is compared. -/
theorem agree_of_empty {u v : State} (hhalt : u.halt = v.halt) (hulen : u.len = 0) (hvlen : v.len = 0)
    (hcap : u.frameCap = v.frameCap) (hlo : u.bndLo = v.bndLo) (hhi : u.bndHi = v.bndHi) : Agree u v :=
  ⟨hhalt, hulen.trans hvlen.symm, hcap, hlo, hhi,
    (partialFrame_of_empty hulen).trans (partialFrame_of_empty hvlen).symm⟩

/-- R176: which boundary register is written, and with what, is the same in two states that agree. -/
theorem agree_writeBoundary (a : CfgAddr) (v : Freq) {s t : State} (h : Agree s t) :
    Agree (writeBoundary a v s) (writeBoundary a v t) := by
  obtain ⟨hhalt, hlen, hcap, hlo, hhi, hheld⟩ := h
  have hs : partialFrame (writeBoundary a v s) = partialFrame s := partialFrame_congr (by simp) (by simp)
  have ht : partialFrame (writeBoundary a v t) = partialFrame t := partialFrame_congr (by simp) (by simp)
  refine ⟨by simpa, by simpa, by simpa, ?_, ?_, by rw [hs, ht, hheld]⟩
  · rw [writeBoundary_bndLo, writeBoundary_bndLo, hlo]
  · rw [writeBoundary_bndHi, writeBoundary_bndHi, hhi]

/-- R90: a byte stored by an ACC is the same byte at the same end of the same frame. -/
theorem agree_store (b : Byte) {s t : State} (hs : s.buf.wf = true) (ht : t.buf.wf = true) (hl : s.len < s.frameCap)
    (h : Agree s t) :
    Agree (quiet (setLen (s.len + 1) (putByte s.len b s))) (quiet (setLen (t.len + 1) (putByte t.len b t))) := by
  obtain ⟨hhalt, hlen, hcap, hlo, hhi, hheld⟩ := h
  have hl' : t.len < t.frameCap := by omega
  have hslen : (quiet (setLen (s.len + 1) (putByte s.len b s))).len = s.len + 1 :=
    setLen_succ_len (s := putByte s.len b s) hl
  have htlen : (quiet (setLen (t.len + 1) (putByte t.len b t))).len = t.len + 1 :=
    setLen_succ_len (s := putByte t.len b t) hl'
  refine ⟨hhalt, by rw [hslen, htlen, hlen], hcap, hlo, hhi, ?_⟩
  rw [partialFrame_of_write hs rfl hslen, partialFrame_of_write ht rfl htlen, hheld]

/-- R167: one instruction in two states that agree leads to states that agree and emits the same. -/
theorem exec_agree {i : Instr} {s t u : State} (hs : s.buf.wf = true) (ht : t.buf.wf = true) (h : Agree s t)
    (hu : exec i s = .next u) : ∃ v, exec i t = .next v ∧ v.out = u.out ∧ Agree u v := by
  have ⟨hhalt, hlen, hcap, hlo, hhi, hheld⟩ := h
  rcases exec_cases i s with ⟨rfl, hrun⟩ | ⟨he, v, hrun⟩ | ⟨hi, he, hh, hrun⟩ | ⟨rfl, -, hrun⟩ | ⟨rfl, hh, hrun⟩ |
    ⟨hh, a, v, rfl, hrun⟩ | ⟨hh, hl, b, rfl, hrun⟩ | ⟨hh, hl, b, rfl, hrun⟩ | ⟨hh, hl, rfl, hrun⟩ | ⟨hh, hl, rfl, hrun⟩
  all_goals obtain rfl := Host.Outcome.next.inj (hu.symm.trans hrun)
  · exact ⟨resetBlock t, rfl, rfl, agree_of_empty rfl (resetBlock_len s) (resetBlock_len t) hcap rfl rfl⟩
  · obtain ⟨w, hw⟩ := exec_stage t he
    exact ⟨_, hw, rfl, h⟩
  · exact ⟨_, exec_halted (hhalt ▸ hh) he hi, rfl, h⟩
  · exact ⟨_, exec_nodata t, rfl, h⟩
  · exact ⟨_, exec_rderr (hhalt ▸ hh), rfl,
      agree_of_empty rfl (takeStreamError_len s) (takeStreamError_len t) hcap hlo hhi⟩
  · exact ⟨_, exec_cfgwr a v (hhalt ▸ hh), rfl, agree_writeBoundary a v h⟩
  · exact ⟨_, exec_acc_stored b (hhalt ▸ hh) (by omega), rfl, agree_store b hs ht hl h⟩
  · exact ⟨_, exec_acc_dropped b (hhalt ▸ hh) (by omega), rfl, h⟩
  · refine ⟨_, exec_term_fits (hhalt ▸ hh) (by omega), ?_,
      agree_of_empty hhalt (setLen_zero_len _) (setLen_zero_len _) hcap hlo hhi⟩
    rw [emit_out, emit_out, hlo, hhi, hheld, hlen]
  · have hl' : t.frameCap ≤ t.len := by omega
    refine ⟨_, exec_term_overlong (hhalt ▸ hh) hl', ?_,
      agree_of_empty hhalt (setLen_zero_len s) (setLen_zero_len t) hcap hlo hhi⟩
    rw [emit_out, emit_out, overlong_bytes hl, overlong_bytes hl', hlo, hhi, hheld, hlen, hcap]

/-- Settles O45, by induction on the sequence with `exec_agree`; canonical buffers stay canonical. -/
theorem recordsDoNotDependOnOldBufferBytes : Obligations.RecordsDoNotDependOnOldBufferBytes := by
  intro is
  induction is with
  | nil => exact fun s t _ _ h => ⟨[], s, t, rfl, rfl, h⟩
  | cons i is ih =>
    intro s t hs ht h
    obtain ⟨s', hs', -⟩ := exec_next_keeps_input i s
    obtain ⟨t', ht', hout, h'⟩ := exec_agree hs ht h hs'
    obtain ⟨rs, u, v, hu, hv, huv⟩ := ih s' t' (exec_keeps_canonical hs hs') (exec_keeps_canonical ht ht') h'
    exact ⟨_, u, v, run_cons_next hs' hu, hout ▸ run_cons_next ht' hv, huv⟩

end Sys2Proof.Machine
end

section
/-!
PROOFS, family `46_system.md`: RST (R175) and CFGWR (R176 to R178). What a configuration write does to a boundary register
is stated once per register file, by the address that names the register; no row has a reserved address.
-/

namespace Sys2Proof.Machine

/-! ### The register that an address names -/

/-- R176: the low bound of row `r` is written at address 2r. -/
theorem names_low_iff (a : CfgAddr) (r : Row) :
    (a.toNat ≤ Config.lastBoundaryAddr ∧ isLowBound a = true) ∧ boundaryRow a = r.val ↔ a.toNat = 2 * r.val := by
  have hr : r.val < 11 := r.isLt
  simp only [Config.lastBoundaryAddr, isLowBound, boundaryRow, beq_iff_eq]
  omega

/-- R176: the high bound of row `r` is written at address 2r + 1. -/
theorem names_high_iff (a : CfgAddr) (r : Row) :
    (a.toNat ≤ Config.lastBoundaryAddr ∧ isLowBound a = false) ∧ boundaryRow a = r.val ↔ a.toNat = 2 * r.val + 1 := by
  have hr : r.val < 11 := r.isLt
  simp only [Config.lastBoundaryAddr, isLowBound, boundaryRow, beq_eq_false_iff_ne]
  omega

theorem bound_writeBoundary_bndLo (a : CfgAddr) (v : Freq) (s : State) (r : Row) :
    bound (writeBoundary a v s).bndLo r = if a.toNat = 2 * r.val then v else bound s.bndLo r := by
  rw [writeBoundary_bndLo, apply_ite (bound · r), bound_setIfInBounds, ← ite_and]
  exact if_congr (names_low_iff a r) rfl rfl

theorem bound_writeBoundary_bndHi (a : CfgAddr) (v : Freq) (s : State) (r : Row) :
    bound (writeBoundary a v s).bndHi r = if a.toNat = 2 * r.val + 1 then v else bound s.bndHi r := by
  rw [writeBoundary_bndHi, apply_ite (bound · r), bound_setIfInBounds, ← ite_and]
  exact if_congr (names_high_iff a r) rfl rfl

/-- R177: the value written to a reserved address is stored nowhere. -/
theorem writeBoundary_reserved {a : CfgAddr} (h : 22 ≤ a.toNat) (v : Freq) (s : State) : writeBoundary a v s = s :=
  if_neg (Nat.not_le.mpr h)

/-- R177, R180: with a reserved address a CFGWR does as little while running as any CFGWR does while halted. -/
theorem exec_cfgwr_reserved {a : CfgAddr} (h : 22 ≤ a.toNat) (v : Freq) (s : State) :
    exec (.cfgwr a v) s = .next (quiet s) := by
  cases hs : s.halt with
  | false => rw [exec_cfgwr a v hs, writeBoundary_reserved h]
  | true => exact exec_halted hs rfl nofun

/-! ### The statements -/

/-- Settles O4: the meaning of RST is `resetBlock`, running or halted. -/
theorem rstRestoresResetValues : Obligations.RstRestoresResetValues :=
  fun s => ⟨resetBlock s, rfl, resetBlock_halt s, resetBlock_len s, fun _ => ⟨rfl, rfl⟩, resetBlock_buf s,
    resetBlock_frameCap s, resetBlock_input s, resetBlock_out s, resetBlock_stage s⟩

/-- Settles O11: the frame of `writeBoundary`, and what it leaves in each register of the two files. -/
theorem cfgwrWritesExactlyOneBound : Obligations.CfgwrWritesExactlyOneBound := fun s a v hrun =>
  ⟨_, exec_cfgwr a v hrun, silent_quiet _, (writeBoundary_halt a v s).trans hrun, writeBoundary_len a v s,
    writeBoundary_buf a v s, writeBoundary_frameCap a v s, writeBoundary_input a v s,
    fun r => ⟨bound_writeBoundary_bndLo a v s r, bound_writeBoundary_bndHi a v s r⟩⟩

/-- Settles O12: the state is given back with the outputs cleared. -/
theorem cfgwrToReservedAddressDoesNothing : Obligations.CfgwrToReservedAddressDoesNothing :=
  fun s _ v ha => ⟨quiet s, exec_cfgwr_reserved ha v s, sameMachine_quiet s, silent_quiet s⟩

/-- Settles O41: a CFGWR keeps what a TERM reads of the frame under construction, LEN, BUF and FRAME_CAP, so the TERM
completes the frame of the state before, and PIPE reads the boundaries as the CFGWR left them. -/
theorem cfgwrAppliesToTheFrameUnderConstruction : Obligations.CfgwrAppliesToTheFrameUnderConstruction := by
  intro s a v hrun hl
  obtain ⟨u, hu, -, huhalt, hulen, hubuf, hucap, -, hbounds⟩ := cfgwrWritesExactlyOneBound s a v hrun
  have hfits : u.len < u.frameCap := by rwa [hulen, hucap]
  have hterm := exec_term_fits huhalt hfits
  rw [partialFrame_congr hulen hubuf, hulen] at hterm
  exact ⟨u, _, hu, hulen, hubuf, hterm, hbounds, rfl, rfl⟩

end Sys2Proof.Machine
end

section
/-!
PROOFS, family `60_exceptions.md`: the codes of the error kinds (R190), what raises StreamReadError (R191), and what each
record leaves behind (R197). RDERR's record is the one record with StreamReadError, since no stage of PIPE gives that kind.
-/

namespace Sys2Proof.Machine

/-! ### The error kind of a record -/

theorem streamErrorRecord_err : streamErrorRecord.err = .streamReadError := rfl

theorem frameRecord_err_ne_streamReadError (f : Frame) : (frameRecord f).err ≠ .streamReadError := by
  simp only [frameRecord]
  split_ifs <;> decide

/-- R191: no frame content and no boundary setting raises StreamReadError. A stage that ends a frame's processing sets its
own kind, and the first and the last of PIPE's records keep the kind that the frame starts with. -/
theorem pipe_err_ne_streamReadError (los his : Vector Freq 11) (f : Frame) :
    (pipe los his f).err ≠ .streamReadError := by
  rcases pipe_cases los his f with ⟨-, hp⟩ | ⟨-, -, hp⟩ | ⟨q, -, -, -, hp⟩ | ⟨q, b, -, -, -, -, hp⟩ |
    ⟨q, b, -, -, -, -, hp⟩
  all_goals rw [hp]
  · exact frameRecord_err_ne_streamReadError f
  · exact nofun
  · exact nofun
  · exact nofun
  · exact frameRecord_err_ne_streamReadError f

/-! ### What halts the block, and what a TERM keeps -/

/-- R24: HALT is cleared by RST, set by RDERR, and kept by everything else. -/
theorem exec_halt_cases {i : Instr} {s t : State} (h : exec i s = .next t) :
    t.halt = s.halt ∨ (i = .rst ∧ t.halt = false) ∨ (i = .rderr ∧ t.halt = true) := by
  rcases exec_cases i s with ⟨hi, hrun⟩ | ⟨-, v, hrun⟩ | ⟨-, -, -, hrun⟩ | ⟨-, -, hrun⟩ | ⟨hi, -, hrun⟩ |
    ⟨-, a, v, -, hrun⟩ | ⟨-, -, b, -, hrun⟩ | ⟨-, -, b, -, hrun⟩ | ⟨-, -, -, hrun⟩ | ⟨-, -, -, hrun⟩
  all_goals obtain rfl := Host.Outcome.next.inj (h.symm.trans hrun)
  · exact .inr (.inl ⟨hi, resetBlock_halt s⟩)
  · exact .inl rfl
  · exact .inl rfl
  · exact .inl rfl
  · exact .inr (.inr ⟨hi, takeStreamError_halt s⟩)
  · exact .inl (writeBoundary_halt a v s)
  · exact .inl rfl
  · exact .inl rfl
  · exact .inl rfl
  · exact .inl rfl

/-- R91, R201: whether the frame fits or not, a TERM taken while running empties the frame under construction, and leaves
HALT and the boundaries alone. -/
theorem exec_term_leaves_running {s t : State} (hrun : s.halt = false) (h : exec .term s = .next t) :
    t.halt = false ∧ t.len = 0 ∧ t.bndLo = s.bndLo ∧ t.bndHi = s.bndHi := by
  rcases Nat.lt_or_ge s.len s.frameCap with hl | hl
  · obtain rfl := Host.Outcome.next.inj (h.symm.trans (exec_term_fits hrun hl))
    exact ⟨hrun, setLen_zero_len _, rfl, rfl⟩
  · obtain rfl := Host.Outcome.next.inj (h.symm.trans (exec_term_overlong hrun hl))
    exact ⟨hrun, setLen_zero_len s, rfl, rfl⟩

/-- R191: a record with StreamReadError is output exactly by an RDERR taken while running. -/
theorem emits_streamReadError_iff {i : Instr} {s t : State} (h : exec i s = .next t) :
    (∃ r, t.out = some r ∧ r.err = .streamReadError) ↔ (i = .rderr ∧ s.halt = false) := by
  rcases exec_out_cases h with ⟨hout, hno⟩ | ⟨hrun, hi, hout⟩ | ⟨-, rfl, f, hout⟩
  · refine iff_of_false ?_ fun ⟨hi, hrun⟩ => hno ⟨hrun, .inr hi⟩
    rintro ⟨r, hr, -⟩
    exact nomatch hout.symm.trans hr
  · exact iff_of_true ⟨_, hout, streamErrorRecord_err⟩ ⟨hi, hrun⟩
  · refine iff_of_false ?_ nofun
    rintro ⟨r, hr, herr⟩
    obtain rfl := Option.some.inj (hout.symm.trans hr)
    exact pipe_err_ne_streamReadError _ _ f herr

/-! ### The statements -/

/-- Settles O46: the table row by row, and a look at the code of each of the six kinds. -/
theorem errorKindsHaveTheTablesCodes : Obligations.ErrorKindsHaveTheTablesCodes := by
  refine ⟨rfl, rfl, rfl, rfl, rfl, rfl, fun e => ?_⟩
  cases e <;> decide

/-- Settles O15: what an instruction emits decides the first part, and what it does to HALT (`exec_halt_cases`) the
second. -/
theorem onlyRderrRaisesStreamReadError : Obligations.OnlyRderrRaisesStreamReadError := by
  refine fun i s t h => ⟨emits_streamReadError_iff h, fun hs ht => ?_⟩
  rcases exec_halt_cases h with hkept | ⟨-, hcleared⟩ | ⟨hi, -⟩
  · exact nomatch hs.symm.trans (hkept.symm.trans ht)
  · exact nomatch hcleared.symm.trans ht
  · exact hi

/-- Settles O19: the record is RDERR's, which halts the block, or one of PIPE's, emitted by a TERM. -/
theorem onlyStreamReadErrorStopsTheBlock : Obligations.OnlyStreamReadErrorStopsTheBlock := by
  intro i s t r h hr
  rcases exec_out_cases h with ⟨hout, -⟩ | ⟨-, rfl, hout⟩ | ⟨hrun, rfl, f, hout⟩
  · exact nomatch hout.symm.trans hr
  · obtain rfl := Option.some.inj (hout.symm.trans hr)
    exact ⟨absurd streamErrorRecord_err, fun _ => exec_rderr_halt h⟩
  · obtain rfl := Option.some.inj (hout.symm.trans hr)
    exact ⟨fun _ => exec_term_leaves_running hrun h, fun herr => absurd herr (pipe_err_ne_streamReadError _ _ f)⟩

end Sys2Proof.Machine
end
